-- ==== Sys2Proof/Word.lean ====
section
/-! DEFINITION. The word types of the MMMM CORE (00_scope.md R6, R7) and the names of the two float formats (43_convert.md R202). -/

namespace Sys2Proof

/-- The contents of a value register: 256 bits (10_state.md R20). -/
abbrev Word := BitVec 256

/-- One 64-bit limb (00_scope.md R6, R7). -/
abbrev Limb := BitVec 64

/-- One byte of BUF (20_memory.md R40). -/
abbrev Byte := BitVec 8

/-- One command word, presented whole on `cmd_word` (30_encoding.md R70). -/
abbrev CmdWord := BitVec 32

/-- The two IEEE 754 formats of 43_convert.md R202. -/
inductive FloatFormat where
  | binary32
  | binary64
deriving DecidableEq, Repr

end Sys2Proof
end

