-- ==== Sys2Proof/Config.lean ====
section
/-! DEFINITION. What is fixed for the machine (00_scope.md R6), and the free values: opaque constants with no body, so that
nothing can be proved about which value they have. -/

namespace Sys2Proof

/-- The size of BUF in bytes (R6, 20_memory.md R40). -/
abbrev Config.bufBytes : Nat := 256

/-- F2U_NONFINITE(N, fmt, bits) of 43_convert.md R206: what a NaN or an infinity converts to, at width `n`. The bits of a
binary32 pattern stand zero-extended in the low 32 bits of `bits`. OPEN in the spec (00_scope.md R6; 93_implementation_defined.md
U6): a parameter about whose value nothing is known (notes/assumptions/15.md). -/
opaque Config.f2uNonfinite (n : Nat) (fmt : FloatFormat) (bits : BitVec 64) : BitVec n

/-- A free byte, for each value of the state's counter of host writes: `hb_rdata` after a host write
(notes/assumptions/4.md). -/
opaque Config.freeByte (count : Nat) : Byte

/-- A free byte, for each reset and each BUF address: the unspecified pattern the byte holds from that reset on until something
writes it (10_state.md R34; 93_implementation_defined.md U2; notes/assumptions/3.md). One pattern for each reset, so that
repeating a read returns the same byte (20_memory.md R50). -/
opaque Config.resetByte (resets addr : Nat) : Byte

/-- A free word, for each reset and each register number: the unspecified contents of x3 to x15 after an `rst` edge (10_state.md
R33, R34; notes/assumptions/8.md). -/
opaque Config.freeWord (resets reg : Nat) : Word

end Sys2Proof
end

