-- ==== Sys2Proof/Syntax.lean ====
section
/-! DEFINITION. The commands of the MMMM CORE as abstract syntax: one constructor for each row of 30_encoding.md R77, its
operands in the assembler's order (30_encoding.md R81), which is the field order. -/

namespace Sys2Proof

/-- The number of a value register, x0 to x15 (10_state.md R20; 30_encoding.md R73). -/
abbrev Reg := Fin 16

/-- One command. An `aux` operand (limb index `k`, type code `t`, `radix`) is the 8-bit field itself (30_encoding.md R71, R75). -/
inductive Instr where
  /-- `ADC64 rd, ra, rb, rc` (R101, opcode 0x01). -/
  | adc64 (rd ra rb rc : Reg)
  /-- `SBB64 rd, ra, rb, rc` (R102, opcode 0x02). -/
  | sbb64 (rd ra rb rc : Reg)
  /-- `WMUL64 rd, ra, rb` (R103, opcode 0x03). -/
  | wmul64 (rd ra rb : Reg)
  /-- `MAC64 rd, ra, rb, rc` (R104, opcode 0x04). -/
  | mac64 (rd ra rb rc : Reg)
  /-- `DIVMOD128 rd, ra, rb` (R105, opcode 0x05). -/
  | divmod128 (rd ra rb : Reg)
  /-- `DIVMOD128X64 rd, ra, rb` (R106, opcode 0x06). -/
  | divmod128x64 (rd ra rb : Reg)
  /-- `LDI rd, imm16` (R107, opcode 0x07). -/
  | ldi (rd : Reg) (imm16 : BitVec 16)
  /-- `LIMBGET rd, ra, k` (R108, opcode 0x08). -/
  | limbget (rd ra : Reg) (k : Byte)
  /-- `LIMBSET rd, ra, rb, k` (R109, opcode 0x09). -/
  | limbset (rd ra rb : Reg) (k : Byte)
  /-- `ADD.128 rd, ra, rb` (R121, opcode 0x40). -/
  | add128 (rd ra rb : Reg)
  /-- `SUB.128 rd, ra, rb` (R123, opcode 0x41). -/
  | sub128 (rd ra rb : Reg)
  /-- `MUL.128 rd, ra, rb` (R125, opcode 0x42). -/
  | mul128 (rd ra rb : Reg)
  /-- `DIV.128 rd, ra, rb` (R127, opcode 0x43). -/
  | div128 (rd ra rb : Reg)
  /-- `REM.128 rd, ra, rb` (R129, opcode 0x44). -/
  | rem128 (rd ra rb : Reg)
  /-- `MULDIV.128 rd, ra, rb, rc` (R131, opcode 0x45). -/
  | muldiv128 (rd ra rb rc : Reg)
  /-- `POW.128 rd, ra, rb` (R133, opcode 0x46). -/
  | pow128 (rd ra rb : Reg)
  /-- `SQRT.128 rd, ra` (R135, opcode 0x47). -/
  | sqrt128 (rd ra : Reg)
  /-- `AND.128 rd, ra, rb` (R161, opcode 0x48). -/
  | and128 (rd ra rb : Reg)
  /-- `OR.128 rd, ra, rb` (R163, opcode 0x49). -/
  | or128 (rd ra rb : Reg)
  /-- `XOR.128 rd, ra, rb` (R165, opcode 0x4A). -/
  | xor128 (rd ra rb : Reg)
  /-- `NOT.128 rd, ra` (R167, opcode 0x4B). -/
  | not128 (rd ra : Reg)
  /-- `SHL.128 rd, ra, rb` (R170, opcode 0x4C). -/
  | shl128 (rd ra rb : Reg)
  /-- `SHR.128 rd, ra, rb` (R172, opcode 0x4D). -/
  | shr128 (rd ra rb : Reg)
  /-- `SHLI.128 rd, ra, imm16` (R174, opcode 0x4E). -/
  | shli128 (rd ra : Reg) (imm16 : BitVec 16)
  /-- `SHRI.128 rd, ra, imm16` (R176, opcode 0x4F). -/
  | shri128 (rd ra : Reg) (imm16 : BitVec 16)
  /-- `CLZ.128 rd, ra` (R178, opcode 0x50). -/
  | clz128 (rd ra : Reg)
  /-- `CTZ.128 rd, ra` (R180, opcode 0x51). -/
  | ctz128 (rd ra : Reg)
  /-- `CMPEQ.128 rd, ra, rb` (R183, opcode 0x52). -/
  | cmpeq128 (rd ra rb : Reg)
  /-- `CMPLT.128 rd, ra, rb` (R185, opcode 0x53). -/
  | cmplt128 (rd ra rb : Reg)
  /-- `CMPLE.128 rd, ra, rb` (R187, opcode 0x54). -/
  | cmple128 (rd ra rb : Reg)
  /-- `CMPGT.128 rd, ra, rb` (R189, opcode 0x55). -/
  | cmpgt128 (rd ra rb : Reg)
  /-- `CMPGE.128 rd, ra, rb` (R191, opcode 0x56). -/
  | cmpge128 (rd ra rb : Reg)
  /-- `INC.128 rd` (R137, opcode 0x57). -/
  | inc128 (rd : Reg)
  /-- `DEC.128 rd` (R139, opcode 0x58). -/
  | dec128 (rd : Reg)
  /-- `SET.128 rd, ra` (R193, opcode 0x59). -/
  | set128 (rd ra : Reg)
  /-- `FROM.128 rd, ra, t` (R207, opcode 0x5A). -/
  | from128 (rd ra : Reg) (t : Byte)
  /-- `TO.128 rd, ra, t` (R209, opcode 0x5B). -/
  | to128 (rd ra : Reg) (t : Byte)
  /-- `BLDLE.128 rd, ra, rb` (R231, opcode 0x5C). -/
  | bldle128 (rd ra rb : Reg)
  /-- `BLDBE.128 rd, ra, rb` (R233, opcode 0x5D). -/
  | bldbe128 (rd ra rb : Reg)
  /-- `BSTLE.128 rs, ra, rb` (R235, opcode 0x5E). -/
  | bstle128 (rs ra rb : Reg)
  /-- `BSTBE.128 rs, ra, rb` (R237, opcode 0x5F). -/
  | bstbe128 (rs ra rb : Reg)
  /-- `PARSE.128 rd, ra, rb, radix` (R241, opcode 0x60). -/
  | parse128 (rd ra rb : Reg) (radix : Byte)
  /-- `FMT.128 rd, ra, rb, radix` (R244, opcode 0x61). -/
  | fmt128 (rd ra rb : Reg) (radix : Byte)
  /-- `ADD.256 rd, ra, rb` (R122, opcode 0x80). -/
  | add256 (rd ra rb : Reg)
  /-- `SUB.256 rd, ra, rb` (R124, opcode 0x81). -/
  | sub256 (rd ra rb : Reg)
  /-- `MUL.256 rd, ra, rb` (R126, opcode 0x82). -/
  | mul256 (rd ra rb : Reg)
  /-- `DIV.256 rd, ra, rb` (R128, opcode 0x83). -/
  | div256 (rd ra rb : Reg)
  /-- `REM.256 rd, ra, rb` (R130, opcode 0x84). -/
  | rem256 (rd ra rb : Reg)
  /-- `POW.256 rd, ra, rb` (R134, opcode 0x86). -/
  | pow256 (rd ra rb : Reg)
  /-- `SQRT.256 rd, ra` (R136, opcode 0x87). -/
  | sqrt256 (rd ra : Reg)
  /-- `AND.256 rd, ra, rb` (R162, opcode 0x88). -/
  | and256 (rd ra rb : Reg)
  /-- `OR.256 rd, ra, rb` (R164, opcode 0x89). -/
  | or256 (rd ra rb : Reg)
  /-- `XOR.256 rd, ra, rb` (R166, opcode 0x8A). -/
  | xor256 (rd ra rb : Reg)
  /-- `NOT.256 rd, ra` (R168, opcode 0x8B). -/
  | not256 (rd ra : Reg)
  /-- `SHL.256 rd, ra, rb` (R171, opcode 0x8C). -/
  | shl256 (rd ra rb : Reg)
  /-- `SHR.256 rd, ra, rb` (R173, opcode 0x8D). -/
  | shr256 (rd ra rb : Reg)
  /-- `SHLI.256 rd, ra, imm16` (R175, opcode 0x8E). -/
  | shli256 (rd ra : Reg) (imm16 : BitVec 16)
  /-- `SHRI.256 rd, ra, imm16` (R177, opcode 0x8F). -/
  | shri256 (rd ra : Reg) (imm16 : BitVec 16)
  /-- `CLZ.256 rd, ra` (R179, opcode 0x90). -/
  | clz256 (rd ra : Reg)
  /-- `CTZ.256 rd, ra` (R181, opcode 0x91). -/
  | ctz256 (rd ra : Reg)
  /-- `CMPEQ.256 rd, ra, rb` (R184, opcode 0x92). -/
  | cmpeq256 (rd ra rb : Reg)
  /-- `CMPLT.256 rd, ra, rb` (R186, opcode 0x93). -/
  | cmplt256 (rd ra rb : Reg)
  /-- `CMPLE.256 rd, ra, rb` (R188, opcode 0x94). -/
  | cmple256 (rd ra rb : Reg)
  /-- `CMPGT.256 rd, ra, rb` (R190, opcode 0x95). -/
  | cmpgt256 (rd ra rb : Reg)
  /-- `CMPGE.256 rd, ra, rb` (R192, opcode 0x96). -/
  | cmpge256 (rd ra rb : Reg)
  /-- `INC.256 rd` (R138, opcode 0x97). -/
  | inc256 (rd : Reg)
  /-- `DEC.256 rd` (R140, opcode 0x98). -/
  | dec256 (rd : Reg)
  /-- `SET.256 rd, ra` (R194, opcode 0x99). -/
  | set256 (rd ra : Reg)
  /-- `FROM.256 rd, ra, t` (R208, opcode 0x9A). -/
  | from256 (rd ra : Reg) (t : Byte)
  /-- `TO.256 rd, ra, t` (R210, opcode 0x9B). -/
  | to256 (rd ra : Reg) (t : Byte)
  /-- `BLDLE.256 rd, ra, rb` (R232, opcode 0x9C). -/
  | bldle256 (rd ra rb : Reg)
  /-- `BLDBE.256 rd, ra, rb` (R234, opcode 0x9D). -/
  | bldbe256 (rd ra rb : Reg)
  /-- `BSTLE.256 rs, ra, rb` (R236, opcode 0x9E). -/
  | bstle256 (rs ra rb : Reg)
  /-- `BSTBE.256 rs, ra, rb` (R238, opcode 0x9F). -/
  | bstbe256 (rs ra rb : Reg)
  /-- `PARSE.256 rd, ra, rb, radix` (R242, opcode 0xA0). -/
  | parse256 (rd ra rb : Reg) (radix : Byte)
  /-- `FMT.256 rd, ra, rb, radix` (R245, opcode 0xA1). -/
  | fmt256 (rd ra rb : Reg) (radix : Byte)
deriving DecidableEq, Repr

/-- The destination register: `some rd` exactly for the rows of 30_encoding.md R77 whose column "writes x[rd]" says yes. -/
def Instr.dest? : Instr → Option Reg
  | .adc64 rd _ _ _ => some rd
  | .sbb64 rd _ _ _ => some rd
  | .wmul64 rd _ _ => some rd
  | .mac64 rd _ _ _ => some rd
  | .divmod128 rd _ _ => some rd
  | .divmod128x64 rd _ _ => some rd
  | .ldi rd _ => some rd
  | .limbget rd _ _ => some rd
  | .limbset rd _ _ _ => some rd
  | .add128 rd _ _ => some rd
  | .sub128 rd _ _ => some rd
  | .mul128 rd _ _ => some rd
  | .div128 rd _ _ => some rd
  | .rem128 rd _ _ => some rd
  | .muldiv128 rd _ _ _ => some rd
  | .pow128 rd _ _ => some rd
  | .sqrt128 rd _ => some rd
  | .and128 rd _ _ => some rd
  | .or128 rd _ _ => some rd
  | .xor128 rd _ _ => some rd
  | .not128 rd _ => some rd
  | .shl128 rd _ _ => some rd
  | .shr128 rd _ _ => some rd
  | .shli128 rd _ _ => some rd
  | .shri128 rd _ _ => some rd
  | .clz128 rd _ => some rd
  | .ctz128 rd _ => some rd
  | .cmpeq128 rd _ _ => some rd
  | .cmplt128 rd _ _ => some rd
  | .cmple128 rd _ _ => some rd
  | .cmpgt128 rd _ _ => some rd
  | .cmpge128 rd _ _ => some rd
  | .inc128 rd => some rd
  | .dec128 rd => some rd
  | .set128 rd _ => some rd
  | .from128 rd _ _ => some rd
  | .to128 rd _ _ => some rd
  | .bldle128 rd _ _ => some rd
  | .bldbe128 rd _ _ => some rd
  | .bstle128 _ _ _ => none
  | .bstbe128 _ _ _ => none
  | .parse128 rd _ _ _ => some rd
  | .fmt128 rd _ _ _ => some rd
  | .add256 rd _ _ => some rd
  | .sub256 rd _ _ => some rd
  | .mul256 rd _ _ => some rd
  | .div256 rd _ _ => some rd
  | .rem256 rd _ _ => some rd
  | .pow256 rd _ _ => some rd
  | .sqrt256 rd _ => some rd
  | .and256 rd _ _ => some rd
  | .or256 rd _ _ => some rd
  | .xor256 rd _ _ => some rd
  | .not256 rd _ => some rd
  | .shl256 rd _ _ => some rd
  | .shr256 rd _ _ => some rd
  | .shli256 rd _ _ => some rd
  | .shri256 rd _ _ => some rd
  | .clz256 rd _ => some rd
  | .ctz256 rd _ => some rd
  | .cmpeq256 rd _ _ => some rd
  | .cmplt256 rd _ _ => some rd
  | .cmple256 rd _ _ => some rd
  | .cmpgt256 rd _ _ => some rd
  | .cmpge256 rd _ _ => some rd
  | .inc256 rd => some rd
  | .dec256 rd => some rd
  | .set256 rd _ => some rd
  | .from256 rd _ _ => some rd
  | .to256 rd _ _ => some rd
  | .bldle256 rd _ _ => some rd
  | .bldbe256 rd _ _ => some rd
  | .bstle256 _ _ _ => none
  | .bstbe256 _ _ _ => none
  | .parse256 rd _ _ _ => some rd
  | .fmt256 rd _ _ _ => some rd

/-- The value registers a command reads: its source fields, and for MAC64, INC and DEC also the destination (10_state.md
R35). -/
def Instr.sources : Instr → List Reg
  | .adc64 _ ra rb rc => [ra, rb, rc]
  | .sbb64 _ ra rb rc => [ra, rb, rc]
  | .wmul64 _ ra rb => [ra, rb]
  | .mac64 rd ra rb rc => [rd, ra, rb, rc]
  | .divmod128 _ ra rb => [ra, rb]
  | .divmod128x64 _ ra rb => [ra, rb]
  | .ldi _ _ => []
  | .limbget _ ra _ => [ra]
  | .limbset _ ra rb _ => [ra, rb]
  | .add128 _ ra rb => [ra, rb]
  | .sub128 _ ra rb => [ra, rb]
  | .mul128 _ ra rb => [ra, rb]
  | .div128 _ ra rb => [ra, rb]
  | .rem128 _ ra rb => [ra, rb]
  | .muldiv128 _ ra rb rc => [ra, rb, rc]
  | .pow128 _ ra rb => [ra, rb]
  | .sqrt128 _ ra => [ra]
  | .and128 _ ra rb => [ra, rb]
  | .or128 _ ra rb => [ra, rb]
  | .xor128 _ ra rb => [ra, rb]
  | .not128 _ ra => [ra]
  | .shl128 _ ra rb => [ra, rb]
  | .shr128 _ ra rb => [ra, rb]
  | .shli128 _ ra _ => [ra]
  | .shri128 _ ra _ => [ra]
  | .clz128 _ ra => [ra]
  | .ctz128 _ ra => [ra]
  | .cmpeq128 _ ra rb => [ra, rb]
  | .cmplt128 _ ra rb => [ra, rb]
  | .cmple128 _ ra rb => [ra, rb]
  | .cmpgt128 _ ra rb => [ra, rb]
  | .cmpge128 _ ra rb => [ra, rb]
  | .inc128 rd => [rd]
  | .dec128 rd => [rd]
  | .set128 _ ra => [ra]
  | .from128 _ ra _ => [ra]
  | .to128 _ ra _ => [ra]
  | .bldle128 _ ra rb => [ra, rb]
  | .bldbe128 _ ra rb => [ra, rb]
  | .bstle128 rs ra rb => [rs, ra, rb]
  | .bstbe128 rs ra rb => [rs, ra, rb]
  | .parse128 _ ra rb _ => [ra, rb]
  | .fmt128 _ ra rb _ => [ra, rb]
  | .add256 _ ra rb => [ra, rb]
  | .sub256 _ ra rb => [ra, rb]
  | .mul256 _ ra rb => [ra, rb]
  | .div256 _ ra rb => [ra, rb]
  | .rem256 _ ra rb => [ra, rb]
  | .pow256 _ ra rb => [ra, rb]
  | .sqrt256 _ ra => [ra]
  | .and256 _ ra rb => [ra, rb]
  | .or256 _ ra rb => [ra, rb]
  | .xor256 _ ra rb => [ra, rb]
  | .not256 _ ra => [ra]
  | .shl256 _ ra rb => [ra, rb]
  | .shr256 _ ra rb => [ra, rb]
  | .shli256 _ ra _ => [ra]
  | .shri256 _ ra _ => [ra]
  | .clz256 _ ra => [ra]
  | .ctz256 _ ra => [ra]
  | .cmpeq256 _ ra rb => [ra, rb]
  | .cmplt256 _ ra rb => [ra, rb]
  | .cmple256 _ ra rb => [ra, rb]
  | .cmpgt256 _ ra rb => [ra, rb]
  | .cmpge256 _ ra rb => [ra, rb]
  | .inc256 rd => [rd]
  | .dec256 rd => [rd]
  | .set256 _ ra => [ra]
  | .from256 _ ra _ => [ra]
  | .to256 _ ra _ => [ra]
  | .bldle256 _ ra rb => [ra, rb]
  | .bldbe256 _ ra rb => [ra, rb]
  | .bstle256 rs ra rb => [rs, ra, rb]
  | .bstbe256 rs ra rb => [rs, ra, rb]
  | .parse256 _ ra rb _ => [ra, rb]
  | .fmt256 _ ra rb _ => [ra, rb]

/-- The commands that write BUF bytes (20_memory.md R43). -/
def Instr.storesBuf : Instr → Bool
  | .adc64 _ _ _ _ => false
  | .sbb64 _ _ _ _ => false
  | .wmul64 _ _ _ => false
  | .mac64 _ _ _ _ => false
  | .divmod128 _ _ _ => false
  | .divmod128x64 _ _ _ => false
  | .ldi _ _ => false
  | .limbget _ _ _ => false
  | .limbset _ _ _ _ => false
  | .add128 _ _ _ => false
  | .sub128 _ _ _ => false
  | .mul128 _ _ _ => false
  | .div128 _ _ _ => false
  | .rem128 _ _ _ => false
  | .muldiv128 _ _ _ _ => false
  | .pow128 _ _ _ => false
  | .sqrt128 _ _ => false
  | .and128 _ _ _ => false
  | .or128 _ _ _ => false
  | .xor128 _ _ _ => false
  | .not128 _ _ => false
  | .shl128 _ _ _ => false
  | .shr128 _ _ _ => false
  | .shli128 _ _ _ => false
  | .shri128 _ _ _ => false
  | .clz128 _ _ => false
  | .ctz128 _ _ => false
  | .cmpeq128 _ _ _ => false
  | .cmplt128 _ _ _ => false
  | .cmple128 _ _ _ => false
  | .cmpgt128 _ _ _ => false
  | .cmpge128 _ _ _ => false
  | .inc128 _ => false
  | .dec128 _ => false
  | .set128 _ _ => false
  | .from128 _ _ _ => false
  | .to128 _ _ _ => false
  | .bldle128 _ _ _ => false
  | .bldbe128 _ _ _ => false
  | .bstle128 _ _ _ => true
  | .bstbe128 _ _ _ => true
  | .parse128 _ _ _ _ => false
  | .fmt128 _ _ _ _ => true
  | .add256 _ _ _ => false
  | .sub256 _ _ _ => false
  | .mul256 _ _ _ => false
  | .div256 _ _ _ => false
  | .rem256 _ _ _ => false
  | .pow256 _ _ _ => false
  | .sqrt256 _ _ => false
  | .and256 _ _ _ => false
  | .or256 _ _ _ => false
  | .xor256 _ _ _ => false
  | .not256 _ _ => false
  | .shl256 _ _ _ => false
  | .shr256 _ _ _ => false
  | .shli256 _ _ _ => false
  | .shri256 _ _ _ => false
  | .clz256 _ _ => false
  | .ctz256 _ _ => false
  | .cmpeq256 _ _ _ => false
  | .cmplt256 _ _ _ => false
  | .cmple256 _ _ _ => false
  | .cmpgt256 _ _ _ => false
  | .cmpge256 _ _ _ => false
  | .inc256 _ => false
  | .dec256 _ => false
  | .set256 _ _ => false
  | .from256 _ _ _ => false
  | .to256 _ _ _ => false
  | .bldle256 _ _ _ => false
  | .bldbe256 _ _ _ => false
  | .bstle256 _ _ _ => true
  | .bstbe256 _ _ _ => true
  | .parse256 _ _ _ _ => false
  | .fmt256 _ _ _ _ => true

/-- The commands that read BUF bytes (20_memory.md R43). -/
def Instr.loadsBuf : Instr → Bool
  | .adc64 _ _ _ _ => false
  | .sbb64 _ _ _ _ => false
  | .wmul64 _ _ _ => false
  | .mac64 _ _ _ _ => false
  | .divmod128 _ _ _ => false
  | .divmod128x64 _ _ _ => false
  | .ldi _ _ => false
  | .limbget _ _ _ => false
  | .limbset _ _ _ _ => false
  | .add128 _ _ _ => false
  | .sub128 _ _ _ => false
  | .mul128 _ _ _ => false
  | .div128 _ _ _ => false
  | .rem128 _ _ _ => false
  | .muldiv128 _ _ _ _ => false
  | .pow128 _ _ _ => false
  | .sqrt128 _ _ => false
  | .and128 _ _ _ => false
  | .or128 _ _ _ => false
  | .xor128 _ _ _ => false
  | .not128 _ _ => false
  | .shl128 _ _ _ => false
  | .shr128 _ _ _ => false
  | .shli128 _ _ _ => false
  | .shri128 _ _ _ => false
  | .clz128 _ _ => false
  | .ctz128 _ _ => false
  | .cmpeq128 _ _ _ => false
  | .cmplt128 _ _ _ => false
  | .cmple128 _ _ _ => false
  | .cmpgt128 _ _ _ => false
  | .cmpge128 _ _ _ => false
  | .inc128 _ => false
  | .dec128 _ => false
  | .set128 _ _ => false
  | .from128 _ _ _ => false
  | .to128 _ _ _ => false
  | .bldle128 _ _ _ => true
  | .bldbe128 _ _ _ => true
  | .bstle128 _ _ _ => false
  | .bstbe128 _ _ _ => false
  | .parse128 _ _ _ _ => true
  | .fmt128 _ _ _ _ => false
  | .add256 _ _ _ => false
  | .sub256 _ _ _ => false
  | .mul256 _ _ _ => false
  | .div256 _ _ _ => false
  | .rem256 _ _ _ => false
  | .pow256 _ _ _ => false
  | .sqrt256 _ _ => false
  | .and256 _ _ _ => false
  | .or256 _ _ _ => false
  | .xor256 _ _ _ => false
  | .not256 _ _ => false
  | .shl256 _ _ _ => false
  | .shr256 _ _ _ => false
  | .shli256 _ _ _ => false
  | .shri256 _ _ _ => false
  | .clz256 _ _ => false
  | .ctz256 _ _ => false
  | .cmpeq256 _ _ _ => false
  | .cmplt256 _ _ _ => false
  | .cmple256 _ _ _ => false
  | .cmpgt256 _ _ _ => false
  | .cmpge256 _ _ _ => false
  | .inc256 _ => false
  | .dec256 _ => false
  | .set256 _ _ => false
  | .from256 _ _ _ => false
  | .to256 _ _ _ => false
  | .bldle256 _ _ _ => true
  | .bldbe256 _ _ _ => true
  | .bstle256 _ _ _ => false
  | .bstbe256 _ _ _ => false
  | .parse256 _ _ _ _ => true
  | .fmt256 _ _ _ _ => false

end Sys2Proof
end

