-- ==== Sys2Proof/WellFormed.lean ====
section
/-! DEFINITION. Which commands have a word (30_encoding.md R75, R78). Register numbers, immediates, type codes and radices are
bounded by their types and every value of them encodes; the one operand that can be out of range is the limb index. -/

namespace Sys2Proof

/-- The limb index of LIMBGET and LIMBSET is 0 to 3: `aux[7:2]` must be 0 (30_encoding.md R75, R78). -/
def limbIndexOk (k : Byte) : Bool := k.toNat < 4

/-- A command is well formed when some command word stands for it. -/
def Instr.wellFormed : Instr → Bool
  | .adc64 _ _ _ _ => true
  | .sbb64 _ _ _ _ => true
  | .wmul64 _ _ _ => true
  | .mac64 _ _ _ _ => true
  | .divmod128 _ _ _ => true
  | .divmod128x64 _ _ _ => true
  | .ldi _ _ => true
  | .limbget _ _ k => limbIndexOk k
  | .limbset _ _ _ k => limbIndexOk k
  | .add128 _ _ _ => true
  | .sub128 _ _ _ => true
  | .mul128 _ _ _ => true
  | .div128 _ _ _ => true
  | .rem128 _ _ _ => true
  | .muldiv128 _ _ _ _ => true
  | .pow128 _ _ _ => true
  | .sqrt128 _ _ => true
  | .and128 _ _ _ => true
  | .or128 _ _ _ => true
  | .xor128 _ _ _ => true
  | .not128 _ _ => true
  | .shl128 _ _ _ => true
  | .shr128 _ _ _ => true
  | .shli128 _ _ _ => true
  | .shri128 _ _ _ => true
  | .clz128 _ _ => true
  | .ctz128 _ _ => true
  | .cmpeq128 _ _ _ => true
  | .cmplt128 _ _ _ => true
  | .cmple128 _ _ _ => true
  | .cmpgt128 _ _ _ => true
  | .cmpge128 _ _ _ => true
  | .inc128 _ => true
  | .dec128 _ => true
  | .set128 _ _ => true
  | .from128 _ _ _ => true
  | .to128 _ _ _ => true
  | .bldle128 _ _ _ => true
  | .bldbe128 _ _ _ => true
  | .bstle128 _ _ _ => true
  | .bstbe128 _ _ _ => true
  | .parse128 _ _ _ _ => true
  | .fmt128 _ _ _ _ => true
  | .add256 _ _ _ => true
  | .sub256 _ _ _ => true
  | .mul256 _ _ _ => true
  | .div256 _ _ _ => true
  | .rem256 _ _ _ => true
  | .pow256 _ _ _ => true
  | .sqrt256 _ _ => true
  | .and256 _ _ _ => true
  | .or256 _ _ _ => true
  | .xor256 _ _ _ => true
  | .not256 _ _ => true
  | .shl256 _ _ _ => true
  | .shr256 _ _ _ => true
  | .shli256 _ _ _ => true
  | .shri256 _ _ _ => true
  | .clz256 _ _ => true
  | .ctz256 _ _ => true
  | .cmpeq256 _ _ _ => true
  | .cmplt256 _ _ _ => true
  | .cmple256 _ _ _ => true
  | .cmpgt256 _ _ _ => true
  | .cmpge256 _ _ _ => true
  | .inc256 _ => true
  | .dec256 _ => true
  | .set256 _ _ => true
  | .from256 _ _ _ => true
  | .to256 _ _ _ => true
  | .bldle256 _ _ _ => true
  | .bldbe256 _ _ _ => true
  | .bstle256 _ _ _ => true
  | .bstbe256 _ _ _ => true
  | .parse256 _ _ _ _ => true
  | .fmt256 _ _ _ _ => true

end Sys2Proof
end

