-- ==== Sys2Proof/Decode.lean ====
section
/-! DEFINITION. The decoder, total on every 32-bit word and rejecting by name, and the encoder, both written from 30_encoding.md
R71, R72, R75, R77. -/

namespace Sys2Proof

/-- The opcode field `w[31:24]` (R71). -/
def opOf (w : CmdWord) : BitVec 8 := w.extractLsb' 24 8

/-- The field `w[23:20]`: rd, or rs of BSTLE and BSTBE (R71). -/
def rdOf (w : CmdWord) : Reg := (w.extractLsb' 20 4).toFin

/-- The field `w[19:16]` (R71). -/
def raOf (w : CmdWord) : Reg := (w.extractLsb' 16 4).toFin

/-- The field `w[15:12]` (R71). -/
def rbOf (w : CmdWord) : Reg := (w.extractLsb' 12 4).toFin

/-- The field `w[11:8]` (R71). -/
def rcOf (w : CmdWord) : Reg := (w.extractLsb' 8 4).toFin

/-- The field `w[7:0]` (R71). -/
def auxOf (w : CmdWord) : Byte := w.extractLsb' 0 8

/-- The field `w[15:0]` of format I (R72). -/
def immOf (w : CmdWord) : BitVec 16 := w.extractLsb' 0 16

/-- The bits of a register number. -/
def regBits (r : Reg) : BitVec 4 := BitVec.ofFin r

/-- A word of format R (R71). -/
def wordR (op : BitVec 8) (rd ra rb rc : Reg) (aux : Byte) : CmdWord :=
  op ++ regBits rd ++ regBits ra ++ regBits rb ++ regBits rc ++ aux

/-- A word of format I (R72). -/
def wordI (op : BitVec 8) (rd ra : Reg) (imm16 : BitVec 16) : CmdWord :=
  op ++ regBits rd ++ regBits ra ++ imm16

/-- One row of the opcode map R77: a word `w` selects it when `w &&& mask = pattern` (`match` in the spec); `build` reads the
operands from the word's fields. -/
structure Row where
  mnemonic : String
  opcode : BitVec 8
  pattern : CmdWord
  mask : CmdWord
  build : CmdWord → Instr

/-- The limb primitives and constructors, group 00 (R76). -/
def limbRows : List Row := [
  ⟨"ADC64", 0x01#8, 0x01000000#32, 0xFF0000FF#32, fun w => .adc64 (rdOf w) (raOf w) (rbOf w) (rcOf w)⟩,
  ⟨"SBB64", 0x02#8, 0x02000000#32, 0xFF0000FF#32, fun w => .sbb64 (rdOf w) (raOf w) (rbOf w) (rcOf w)⟩,
  ⟨"WMUL64", 0x03#8, 0x03000000#32, 0xFF000FFF#32, fun w => .wmul64 (rdOf w) (raOf w) (rbOf w)⟩,
  ⟨"MAC64", 0x04#8, 0x04000000#32, 0xFF0000FF#32, fun w => .mac64 (rdOf w) (raOf w) (rbOf w) (rcOf w)⟩,
  ⟨"DIVMOD128", 0x05#8, 0x05000000#32, 0xFF000FFF#32, fun w => .divmod128 (rdOf w) (raOf w) (rbOf w)⟩,
  ⟨"DIVMOD128X64", 0x06#8, 0x06000000#32, 0xFF000FFF#32, fun w => .divmod128x64 (rdOf w) (raOf w) (rbOf w)⟩,
  ⟨"LDI", 0x07#8, 0x07000000#32, 0xFF0F0000#32, fun w => .ldi (rdOf w) (immOf w)⟩,
  ⟨"LIMBGET", 0x08#8, 0x08000000#32, 0xFF00FFFC#32, fun w => .limbget (rdOf w) (raOf w) (auxOf w)⟩,
  ⟨"LIMBSET", 0x09#8, 0x09000000#32, 0xFF000FFC#32, fun w => .limbset (rdOf w) (raOf w) (rbOf w) (auxOf w)⟩]

/-- The 128-bit type, arithmetic (group 01). -/
def arithRows128 : List Row := [
  ⟨"ADD.128", 0x40#8, 0x40000000#32, 0xFF000FFF#32, fun w => .add128 (rdOf w) (raOf w) (rbOf w)⟩,
  ⟨"SUB.128", 0x41#8, 0x41000000#32, 0xFF000FFF#32, fun w => .sub128 (rdOf w) (raOf w) (rbOf w)⟩,
  ⟨"MUL.128", 0x42#8, 0x42000000#32, 0xFF000FFF#32, fun w => .mul128 (rdOf w) (raOf w) (rbOf w)⟩,
  ⟨"DIV.128", 0x43#8, 0x43000000#32, 0xFF000FFF#32, fun w => .div128 (rdOf w) (raOf w) (rbOf w)⟩,
  ⟨"REM.128", 0x44#8, 0x44000000#32, 0xFF000FFF#32, fun w => .rem128 (rdOf w) (raOf w) (rbOf w)⟩,
  ⟨"MULDIV.128", 0x45#8, 0x45000000#32, 0xFF0000FF#32, fun w => .muldiv128 (rdOf w) (raOf w) (rbOf w) (rcOf w)⟩,
  ⟨"POW.128", 0x46#8, 0x46000000#32, 0xFF000FFF#32, fun w => .pow128 (rdOf w) (raOf w) (rbOf w)⟩,
  ⟨"SQRT.128", 0x47#8, 0x47000000#32, 0xFF00FFFF#32, fun w => .sqrt128 (rdOf w) (raOf w)⟩]

/-- The 128-bit type, bitwise, shifts, counts (group 01). -/
def bitRows128 : List Row := [
  ⟨"AND.128", 0x48#8, 0x48000000#32, 0xFF000FFF#32, fun w => .and128 (rdOf w) (raOf w) (rbOf w)⟩,
  ⟨"OR.128", 0x49#8, 0x49000000#32, 0xFF000FFF#32, fun w => .or128 (rdOf w) (raOf w) (rbOf w)⟩,
  ⟨"XOR.128", 0x4A#8, 0x4A000000#32, 0xFF000FFF#32, fun w => .xor128 (rdOf w) (raOf w) (rbOf w)⟩,
  ⟨"NOT.128", 0x4B#8, 0x4B000000#32, 0xFF00FFFF#32, fun w => .not128 (rdOf w) (raOf w)⟩,
  ⟨"SHL.128", 0x4C#8, 0x4C000000#32, 0xFF000FFF#32, fun w => .shl128 (rdOf w) (raOf w) (rbOf w)⟩,
  ⟨"SHR.128", 0x4D#8, 0x4D000000#32, 0xFF000FFF#32, fun w => .shr128 (rdOf w) (raOf w) (rbOf w)⟩,
  ⟨"SHLI.128", 0x4E#8, 0x4E000000#32, 0xFF000000#32, fun w => .shli128 (rdOf w) (raOf w) (immOf w)⟩,
  ⟨"SHRI.128", 0x4F#8, 0x4F000000#32, 0xFF000000#32, fun w => .shri128 (rdOf w) (raOf w) (immOf w)⟩,
  ⟨"CLZ.128", 0x50#8, 0x50000000#32, 0xFF00FFFF#32, fun w => .clz128 (rdOf w) (raOf w)⟩,
  ⟨"CTZ.128", 0x51#8, 0x51000000#32, 0xFF00FFFF#32, fun w => .ctz128 (rdOf w) (raOf w)⟩]

/-- The 128-bit type, compares, INC, DEC, SET, conversions, serializers (group 01). -/
def restRows128 : List Row := [
  ⟨"CMPEQ.128", 0x52#8, 0x52000000#32, 0xFF000FFF#32, fun w => .cmpeq128 (rdOf w) (raOf w) (rbOf w)⟩,
  ⟨"CMPLT.128", 0x53#8, 0x53000000#32, 0xFF000FFF#32, fun w => .cmplt128 (rdOf w) (raOf w) (rbOf w)⟩,
  ⟨"CMPLE.128", 0x54#8, 0x54000000#32, 0xFF000FFF#32, fun w => .cmple128 (rdOf w) (raOf w) (rbOf w)⟩,
  ⟨"CMPGT.128", 0x55#8, 0x55000000#32, 0xFF000FFF#32, fun w => .cmpgt128 (rdOf w) (raOf w) (rbOf w)⟩,
  ⟨"CMPGE.128", 0x56#8, 0x56000000#32, 0xFF000FFF#32, fun w => .cmpge128 (rdOf w) (raOf w) (rbOf w)⟩,
  ⟨"INC.128", 0x57#8, 0x57000000#32, 0xFF0FFFFF#32, fun w => .inc128 (rdOf w)⟩,
  ⟨"DEC.128", 0x58#8, 0x58000000#32, 0xFF0FFFFF#32, fun w => .dec128 (rdOf w)⟩,
  ⟨"SET.128", 0x59#8, 0x59000000#32, 0xFF00FFFF#32, fun w => .set128 (rdOf w) (raOf w)⟩,
  ⟨"FROM.128", 0x5A#8, 0x5A000000#32, 0xFF00FF00#32, fun w => .from128 (rdOf w) (raOf w) (auxOf w)⟩,
  ⟨"TO.128", 0x5B#8, 0x5B000000#32, 0xFF00FF00#32, fun w => .to128 (rdOf w) (raOf w) (auxOf w)⟩,
  ⟨"BLDLE.128", 0x5C#8, 0x5C000000#32, 0xFF000FFF#32, fun w => .bldle128 (rdOf w) (raOf w) (rbOf w)⟩,
  ⟨"BLDBE.128", 0x5D#8, 0x5D000000#32, 0xFF000FFF#32, fun w => .bldbe128 (rdOf w) (raOf w) (rbOf w)⟩,
  ⟨"BSTLE.128", 0x5E#8, 0x5E000000#32, 0xFF000FFF#32, fun w => .bstle128 (rdOf w) (raOf w) (rbOf w)⟩,
  ⟨"BSTBE.128", 0x5F#8, 0x5F000000#32, 0xFF000FFF#32, fun w => .bstbe128 (rdOf w) (raOf w) (rbOf w)⟩,
  ⟨"PARSE.128", 0x60#8, 0x60000000#32, 0xFF000F00#32, fun w => .parse128 (rdOf w) (raOf w) (rbOf w) (auxOf w)⟩,
  ⟨"FMT.128", 0x61#8, 0x61000000#32, 0xFF000F00#32, fun w => .fmt128 (rdOf w) (raOf w) (rbOf w) (auxOf w)⟩]

/-- The 256-bit type, arithmetic (group 10). 0x85 is reserved (R79). -/
def arithRows256 : List Row := [
  ⟨"ADD.256", 0x80#8, 0x80000000#32, 0xFF000FFF#32, fun w => .add256 (rdOf w) (raOf w) (rbOf w)⟩,
  ⟨"SUB.256", 0x81#8, 0x81000000#32, 0xFF000FFF#32, fun w => .sub256 (rdOf w) (raOf w) (rbOf w)⟩,
  ⟨"MUL.256", 0x82#8, 0x82000000#32, 0xFF000FFF#32, fun w => .mul256 (rdOf w) (raOf w) (rbOf w)⟩,
  ⟨"DIV.256", 0x83#8, 0x83000000#32, 0xFF000FFF#32, fun w => .div256 (rdOf w) (raOf w) (rbOf w)⟩,
  ⟨"REM.256", 0x84#8, 0x84000000#32, 0xFF000FFF#32, fun w => .rem256 (rdOf w) (raOf w) (rbOf w)⟩,
  ⟨"POW.256", 0x86#8, 0x86000000#32, 0xFF000FFF#32, fun w => .pow256 (rdOf w) (raOf w) (rbOf w)⟩,
  ⟨"SQRT.256", 0x87#8, 0x87000000#32, 0xFF00FFFF#32, fun w => .sqrt256 (rdOf w) (raOf w)⟩]

/-- The 256-bit type, bitwise, shifts, counts (group 10). -/
def bitRows256 : List Row := [
  ⟨"AND.256", 0x88#8, 0x88000000#32, 0xFF000FFF#32, fun w => .and256 (rdOf w) (raOf w) (rbOf w)⟩,
  ⟨"OR.256", 0x89#8, 0x89000000#32, 0xFF000FFF#32, fun w => .or256 (rdOf w) (raOf w) (rbOf w)⟩,
  ⟨"XOR.256", 0x8A#8, 0x8A000000#32, 0xFF000FFF#32, fun w => .xor256 (rdOf w) (raOf w) (rbOf w)⟩,
  ⟨"NOT.256", 0x8B#8, 0x8B000000#32, 0xFF00FFFF#32, fun w => .not256 (rdOf w) (raOf w)⟩,
  ⟨"SHL.256", 0x8C#8, 0x8C000000#32, 0xFF000FFF#32, fun w => .shl256 (rdOf w) (raOf w) (rbOf w)⟩,
  ⟨"SHR.256", 0x8D#8, 0x8D000000#32, 0xFF000FFF#32, fun w => .shr256 (rdOf w) (raOf w) (rbOf w)⟩,
  ⟨"SHLI.256", 0x8E#8, 0x8E000000#32, 0xFF000000#32, fun w => .shli256 (rdOf w) (raOf w) (immOf w)⟩,
  ⟨"SHRI.256", 0x8F#8, 0x8F000000#32, 0xFF000000#32, fun w => .shri256 (rdOf w) (raOf w) (immOf w)⟩,
  ⟨"CLZ.256", 0x90#8, 0x90000000#32, 0xFF00FFFF#32, fun w => .clz256 (rdOf w) (raOf w)⟩,
  ⟨"CTZ.256", 0x91#8, 0x91000000#32, 0xFF00FFFF#32, fun w => .ctz256 (rdOf w) (raOf w)⟩]

/-- The 256-bit type, compares, INC, DEC, SET, conversions, serializers (group 10). -/
def restRows256 : List Row := [
  ⟨"CMPEQ.256", 0x92#8, 0x92000000#32, 0xFF000FFF#32, fun w => .cmpeq256 (rdOf w) (raOf w) (rbOf w)⟩,
  ⟨"CMPLT.256", 0x93#8, 0x93000000#32, 0xFF000FFF#32, fun w => .cmplt256 (rdOf w) (raOf w) (rbOf w)⟩,
  ⟨"CMPLE.256", 0x94#8, 0x94000000#32, 0xFF000FFF#32, fun w => .cmple256 (rdOf w) (raOf w) (rbOf w)⟩,
  ⟨"CMPGT.256", 0x95#8, 0x95000000#32, 0xFF000FFF#32, fun w => .cmpgt256 (rdOf w) (raOf w) (rbOf w)⟩,
  ⟨"CMPGE.256", 0x96#8, 0x96000000#32, 0xFF000FFF#32, fun w => .cmpge256 (rdOf w) (raOf w) (rbOf w)⟩,
  ⟨"INC.256", 0x97#8, 0x97000000#32, 0xFF0FFFFF#32, fun w => .inc256 (rdOf w)⟩,
  ⟨"DEC.256", 0x98#8, 0x98000000#32, 0xFF0FFFFF#32, fun w => .dec256 (rdOf w)⟩,
  ⟨"SET.256", 0x99#8, 0x99000000#32, 0xFF00FFFF#32, fun w => .set256 (rdOf w) (raOf w)⟩,
  ⟨"FROM.256", 0x9A#8, 0x9A000000#32, 0xFF00FF00#32, fun w => .from256 (rdOf w) (raOf w) (auxOf w)⟩,
  ⟨"TO.256", 0x9B#8, 0x9B000000#32, 0xFF00FF00#32, fun w => .to256 (rdOf w) (raOf w) (auxOf w)⟩,
  ⟨"BLDLE.256", 0x9C#8, 0x9C000000#32, 0xFF000FFF#32, fun w => .bldle256 (rdOf w) (raOf w) (rbOf w)⟩,
  ⟨"BLDBE.256", 0x9D#8, 0x9D000000#32, 0xFF000FFF#32, fun w => .bldbe256 (rdOf w) (raOf w) (rbOf w)⟩,
  ⟨"BSTLE.256", 0x9E#8, 0x9E000000#32, 0xFF000FFF#32, fun w => .bstle256 (rdOf w) (raOf w) (rbOf w)⟩,
  ⟨"BSTBE.256", 0x9F#8, 0x9F000000#32, 0xFF000FFF#32, fun w => .bstbe256 (rdOf w) (raOf w) (rbOf w)⟩,
  ⟨"PARSE.256", 0xA0#8, 0xA0000000#32, 0xFF000F00#32, fun w => .parse256 (rdOf w) (raOf w) (rbOf w) (auxOf w)⟩,
  ⟨"FMT.256", 0xA1#8, 0xA1000000#32, 0xFF000F00#32, fun w => .fmt256 (rdOf w) (raOf w) (rbOf w) (auxOf w)⟩]

/-- The complete opcode map: 76 rows (R77). -/
def opcodeTable : List Row :=
  limbRows ++ arithRows128 ++ bitRows128 ++ restRows128 ++ arithRows256 ++ bitRows256 ++ restRows256

/-- The row whose opcode is `op`; at most one exists (R80). -/
def rowFor? (op : BitVec 8) : Option Row := opcodeTable.find? (fun r => r.opcode == op)

/-- Why a word is no command. Either way the machine answers with the status IllegalCommand (60_exceptions.md R302). -/
inductive DecodeError where
  /-- The opcode byte is not in the opcode map (R79). -/
  | reservedOpcode
  /-- A bit under the row's mask differs from its match: a reserved field is nonzero (R78). -/
  | reservedFieldNonzero
deriving DecidableEq, Repr

/-- The decode procedure of R80, its first two steps. The third, the check of the destination, is made by the command's meaning
(`Machine.guardDest`), before every other check of the command. -/
def decode (w : CmdWord) : Except DecodeError Instr :=
  match rowFor? (opOf w) with
  | none => .error .reservedOpcode
  | some row => if w &&& row.mask = row.pattern then .ok (row.build w) else .error .reservedFieldNonzero

/-- The word of a command (R71, R72, R77): its opcode, its operands in their fields, every other field 0. -/
def encode : Instr → CmdWord
  | .adc64 rd ra rb rc => wordR 0x01#8 rd ra rb rc 0#8
  | .sbb64 rd ra rb rc => wordR 0x02#8 rd ra rb rc 0#8
  | .wmul64 rd ra rb => wordR 0x03#8 rd ra rb 0 0#8
  | .mac64 rd ra rb rc => wordR 0x04#8 rd ra rb rc 0#8
  | .divmod128 rd ra rb => wordR 0x05#8 rd ra rb 0 0#8
  | .divmod128x64 rd ra rb => wordR 0x06#8 rd ra rb 0 0#8
  | .ldi rd imm16 => wordI 0x07#8 rd 0 imm16
  | .limbget rd ra k => wordR 0x08#8 rd ra 0 0 k
  | .limbset rd ra rb k => wordR 0x09#8 rd ra rb 0 k
  | .add128 rd ra rb => wordR 0x40#8 rd ra rb 0 0#8
  | .sub128 rd ra rb => wordR 0x41#8 rd ra rb 0 0#8
  | .mul128 rd ra rb => wordR 0x42#8 rd ra rb 0 0#8
  | .div128 rd ra rb => wordR 0x43#8 rd ra rb 0 0#8
  | .rem128 rd ra rb => wordR 0x44#8 rd ra rb 0 0#8
  | .muldiv128 rd ra rb rc => wordR 0x45#8 rd ra rb rc 0#8
  | .pow128 rd ra rb => wordR 0x46#8 rd ra rb 0 0#8
  | .sqrt128 rd ra => wordR 0x47#8 rd ra 0 0 0#8
  | .and128 rd ra rb => wordR 0x48#8 rd ra rb 0 0#8
  | .or128 rd ra rb => wordR 0x49#8 rd ra rb 0 0#8
  | .xor128 rd ra rb => wordR 0x4A#8 rd ra rb 0 0#8
  | .not128 rd ra => wordR 0x4B#8 rd ra 0 0 0#8
  | .shl128 rd ra rb => wordR 0x4C#8 rd ra rb 0 0#8
  | .shr128 rd ra rb => wordR 0x4D#8 rd ra rb 0 0#8
  | .shli128 rd ra imm16 => wordI 0x4E#8 rd ra imm16
  | .shri128 rd ra imm16 => wordI 0x4F#8 rd ra imm16
  | .clz128 rd ra => wordR 0x50#8 rd ra 0 0 0#8
  | .ctz128 rd ra => wordR 0x51#8 rd ra 0 0 0#8
  | .cmpeq128 rd ra rb => wordR 0x52#8 rd ra rb 0 0#8
  | .cmplt128 rd ra rb => wordR 0x53#8 rd ra rb 0 0#8
  | .cmple128 rd ra rb => wordR 0x54#8 rd ra rb 0 0#8
  | .cmpgt128 rd ra rb => wordR 0x55#8 rd ra rb 0 0#8
  | .cmpge128 rd ra rb => wordR 0x56#8 rd ra rb 0 0#8
  | .inc128 rd => wordR 0x57#8 rd 0 0 0 0#8
  | .dec128 rd => wordR 0x58#8 rd 0 0 0 0#8
  | .set128 rd ra => wordR 0x59#8 rd ra 0 0 0#8
  | .from128 rd ra t => wordR 0x5A#8 rd ra 0 0 t
  | .to128 rd ra t => wordR 0x5B#8 rd ra 0 0 t
  | .bldle128 rd ra rb => wordR 0x5C#8 rd ra rb 0 0#8
  | .bldbe128 rd ra rb => wordR 0x5D#8 rd ra rb 0 0#8
  | .bstle128 rs ra rb => wordR 0x5E#8 rs ra rb 0 0#8
  | .bstbe128 rs ra rb => wordR 0x5F#8 rs ra rb 0 0#8
  | .parse128 rd ra rb radix => wordR 0x60#8 rd ra rb 0 radix
  | .fmt128 rd ra rb radix => wordR 0x61#8 rd ra rb 0 radix
  | .add256 rd ra rb => wordR 0x80#8 rd ra rb 0 0#8
  | .sub256 rd ra rb => wordR 0x81#8 rd ra rb 0 0#8
  | .mul256 rd ra rb => wordR 0x82#8 rd ra rb 0 0#8
  | .div256 rd ra rb => wordR 0x83#8 rd ra rb 0 0#8
  | .rem256 rd ra rb => wordR 0x84#8 rd ra rb 0 0#8
  | .pow256 rd ra rb => wordR 0x86#8 rd ra rb 0 0#8
  | .sqrt256 rd ra => wordR 0x87#8 rd ra 0 0 0#8
  | .and256 rd ra rb => wordR 0x88#8 rd ra rb 0 0#8
  | .or256 rd ra rb => wordR 0x89#8 rd ra rb 0 0#8
  | .xor256 rd ra rb => wordR 0x8A#8 rd ra rb 0 0#8
  | .not256 rd ra => wordR 0x8B#8 rd ra 0 0 0#8
  | .shl256 rd ra rb => wordR 0x8C#8 rd ra rb 0 0#8
  | .shr256 rd ra rb => wordR 0x8D#8 rd ra rb 0 0#8
  | .shli256 rd ra imm16 => wordI 0x8E#8 rd ra imm16
  | .shri256 rd ra imm16 => wordI 0x8F#8 rd ra imm16
  | .clz256 rd ra => wordR 0x90#8 rd ra 0 0 0#8
  | .ctz256 rd ra => wordR 0x91#8 rd ra 0 0 0#8
  | .cmpeq256 rd ra rb => wordR 0x92#8 rd ra rb 0 0#8
  | .cmplt256 rd ra rb => wordR 0x93#8 rd ra rb 0 0#8
  | .cmple256 rd ra rb => wordR 0x94#8 rd ra rb 0 0#8
  | .cmpgt256 rd ra rb => wordR 0x95#8 rd ra rb 0 0#8
  | .cmpge256 rd ra rb => wordR 0x96#8 rd ra rb 0 0#8
  | .inc256 rd => wordR 0x97#8 rd 0 0 0 0#8
  | .dec256 rd => wordR 0x98#8 rd 0 0 0 0#8
  | .set256 rd ra => wordR 0x99#8 rd ra 0 0 0#8
  | .from256 rd ra t => wordR 0x9A#8 rd ra 0 0 t
  | .to256 rd ra t => wordR 0x9B#8 rd ra 0 0 t
  | .bldle256 rd ra rb => wordR 0x9C#8 rd ra rb 0 0#8
  | .bldbe256 rd ra rb => wordR 0x9D#8 rd ra rb 0 0#8
  | .bstle256 rs ra rb => wordR 0x9E#8 rs ra rb 0 0#8
  | .bstbe256 rs ra rb => wordR 0x9F#8 rs ra rb 0 0#8
  | .parse256 rd ra rb radix => wordR 0xA0#8 rd ra rb 0 radix
  | .fmt256 rd ra rb radix => wordR 0xA1#8 rd ra rb 0 radix

/-- The instruction the decoder reads from the word whose bits are `w`, numbered as the opcode table numbers them. Every command
is exactly one 32-bit word (R70), so a number with a bit above bit 31 is no command. -/
def decodeTableWord (nbits w : Nat) : Option Instr :=
  if w % 2 ^ nbits < 2 ^ 32 then (decode (BitVec.ofNat 32 (w % 2 ^ nbits))).toOption else none

end Sys2Proof
end

