-- ==== Sys2Proof/Machine/State.lean ====
section
/-! DEFINITION. The state of the machine, the reasons a step can stop, and the state after reset. -/

namespace Sys2Proof.Machine

/-- The seven error kinds a command can end with (60_exceptions.md R300). -/
inductive ErrorKind where
  | divideByZero
  | invalidLength
  | invalidRadix
  | invalidCharacter
  | unsupportedType
  | immutableConstantViolation
  | illegalCommand
deriving DecidableEq, Repr

/-- The status of a command (R300). Codes 8 to 15 are never produced (R323): no value of this type has one. -/
inductive Status where
  | ok
  | error (kind : ErrorKind)
deriving DecidableEq, Repr

/-- The host's pins at one rising edge of `clk` (20_memory.md R53), and whether CMD_LATENCY of the command in progress ends at
this edge (`latencyEnds`: no pin; the OPEN parameter of 70_reset_and_hazards.md R348 as an input, notes/assumptions/10.md). -/
structure Edge where
  rst : Bool := false
  cmdValid : Bool := false
  cmdWord : CmdWord := 0
  rspReady : Bool := false
  hbEn : Bool := false
  hbWe : Bool := false
  hbAddr : Byte := 0
  hbWdata : Byte := 0
  latencyEnds : Bool := false
deriving DecidableEq, Repr

/-- BUF (20_memory.md R40): the bytes written since reset, as (address, byte) pairs, addresses strictly rising. An address that
is not listed has no value (10_state.md R34; notes/assumptions/2.md). -/
abbrev Memory := List Host.Cell

/-- The state. -/
structure State where
  /-- x3 to x15: register number `r` is entry `r - 3` (10_state.md R22). x0 to x2 are hard-wired and not stored (R21). -/
  gpr : Vector Word 13
  /-- The data buffer BUF (R30). -/
  buf : Memory
  /-- A command is accepted and its response not yet taken (R31). -/
  busy : Bool
  /-- A response is waiting for the host (R31); the `rsp_valid` port (20_memory.md R53). -/
  rspPending : Bool
  /-- The status of the latest command: `rsp_status` while `rspPending` (20_memory.md R54); at other times the spec is silent
  (notes/assumptions/7.md). -/
  rspStatus : Status
  /-- The `hb_rdata` output (20_memory.md R55). -/
  hbRdata : Byte
  /-- `rst` was 1 at the last edge: `cmd_ready` is still 0 (70_reset_and_hazards.md R340). -/
  inReset : Bool
  /-- The model's own: the host's pins at the edges to come, the next first; past its end every pin is 0
  (notes/assumptions/11.md). -/
  inputs : List Edge
  /-- The model's own: how many host writes have left a free byte on `hb_rdata` (notes/assumptions/4.md). -/
  freeCount : Nat
  /-- The model's own: how many `rst` edges there were. It says which unspecified pattern registers and BUF hold
  (notes/assumptions/3.md). -/
  resetCount : Nat
deriving DecidableEq, Repr

/-- Why the machine stops. -/
inductive Fault where
  /-- BLDLE, BLDBE or PARSE reads the BUF byte at this address and nothing has written it since reset: 10_state.md R34 and
  93_implementation_defined.md U2 ask for a fault of the reading command. Safe: the hardware goes on with an unspecified
  value (notes/assumptions/2.md). -/
  | bufByteNeverWritten (addr : Nat)
deriving DecidableEq, Repr

/-- Why the model has no step. -/
inductive Refusal where
  /-- An instruction without a meaning in this model, refused by exec's arm. No arm raises it. Safe. -/
  | notModelled (mnemonic : String)
  /-- The host accesses BUF while `busy = 1`: 20_memory.md R55 and 93_implementation_defined.md U3 give such an access no step.
  Raised by the clock edge, never by a command. Safe (notes/assumptions/12.md). -/
  | hostAccessWhileBusy
deriving DecidableEq, Repr

/-- What every command and every edge answers. -/
abbrev Result := Host.Outcome State Fault Refusal

/-- The machine right after reset (10_state.md R33; 70_reset_and_hazards.md R342): interface idle, `cmd_ready = 1`, no BUF byte
with a value. The spec gives x3 to x15 no value; 0 is this model's choice (notes/assumptions/1.md), as are `rspStatus` (7) and
`hbRdata` (5). -/
def State.reset : State where
  gpr := Vector.replicate 13 0
  buf := []
  busy := false
  rspPending := false
  rspStatus := .ok
  hbRdata := 0
  inReset := false
  inputs := []
  freeCount := 0
  resetCount := 0

end Sys2Proof.Machine
end

