-- ==== Sys2Proof/Machine/Ops.lean ====
section
/-! DEFINITION. The named operations over BUF and the registers, and the one way a command ends: with a status. -/

namespace Sys2Proof.Machine

/-! ### BUF -/

/-- The canonical form: addresses strictly rising, all below 256. No entry equals what an unlisted address reads as, because an
unlisted address reads as no value (notes/assumptions/2.md). -/
abbrev Memory.wf (m : Memory) : Prop :=
  m.Pairwise (fun a b => a.1 < b.1) ∧ ∀ c ∈ m, c.1 < Config.bufBytes

/-- What an unlisted address reads as: no value (10_state.md R33, R34). -/
def Memory.unlisted : Option Byte := none

/-- The byte at an address, if something has written it since reset. -/
def Memory.read : Memory → Nat → Option Byte
  | [], _ => Memory.unlisted
  | (c, b) :: m, a => if a = c then some b else Memory.read m a

/-- Writes one byte, keeping the canonical form. -/
def Memory.write : Memory → Nat → Byte → Memory
  | [], a, b => [(a, b)]
  | (c, x) :: m, a, b =>
    if a < c then (a, b) :: (c, x) :: m
    else if a = c then (a, b) :: m
    else (c, x) :: Memory.write m a b

/-- The address of byte `j` of an access that starts at `addr` (20_memory.md R42). -/
def wrapAddr (addr j : Nat) : Nat := (addr + j) % Config.bufBytes

/-- MemRead(addr, n) (00_scope.md R9): `n` bytes from `addr` on, wrapping at 256, or the first address that has no value. -/
def Memory.readBytes (m : Memory) (addr : Nat) : Nat → Except Nat (List Byte)
  | 0 => .ok []
  | n + 1 =>
    match m.read (wrapAddr addr 0) with
    | none => .error (wrapAddr addr 0)
    | some b =>
      match Memory.readBytes m (addr + 1) n with
      | .error a => .error a
      | .ok bs => .ok (b :: bs)

/-- MemWrite(addr, n, b) (00_scope.md R9): the bytes from `addr` on, wrapping at 256. -/
def Memory.writeBytes (m : Memory) (addr : Nat) : List Byte → Memory
  | [] => m
  | b :: bs => Memory.writeBytes (m.write (wrapAddr addr 0) b) (addr + 1) bs

/-! ### Byte order (20_memory.md R44) -/

/-- Byte `j` of a value: its bits `8j+7` to `8j`. -/
def byteOf {n : Nat} (v : BitVec n) (j : Nat) : Byte := v.extractLsb' (8 * j) 8

/-- The little-endian bytes of a value of `8 * len` bits: byte `j` at offset `j`. -/
def leBytes {n : Nat} (len : Nat) (v : BitVec n) : List Byte := (List.range len).map (byteOf v)

/-- The big-endian bytes: byte `len - 1 - j` at offset `j`. -/
def beBytes {n : Nat} (len : Nat) (v : BitVec n) : List Byte := (List.range len).map fun j => byteOf v (len - 1 - j)

/-- The number whose little-endian bytes these are: the sum of `b[j] * 2^(8j)`. -/
def fromLE : List Byte → Nat
  | [] => 0
  | b :: bs => b.toNat + 2 ^ 8 * fromLE bs

/-- The number whose big-endian bytes these are: the sum of `b[j] * 2^(8(len-1-j))`. -/
def fromBE (bs : List Byte) : Nat := fromLE bs.reverse

/-! ### Registers -/

/-- x0, x1 and x2 hold the constants Zero, One and Max (10_state.md R21). -/
def isConstant (r : Reg) : Bool := r.val < 3

/-- The constant of a hard-wired register (10_state.md R21). -/
def constantOf : Nat → Word
  | 0 => 0
  | 1 => 1
  | _ => BitVec.allOnes 256

/-- Reads a register: x0 to x2 always read as their constants (10_state.md R21). -/
def readReg (s : State) (r : Reg) : Word :=
  if h : r.val < 3 then constantOf r.val else s.gpr[r.val - 3]'(by omega)

/-- Writes all 256 bits of a register (10_state.md R25). x0 to x2 keep their constants; no command gets here with one
(`guardDest`). -/
def writeReg (s : State) (r : Reg) (v : Word) : State :=
  if h : r.val < 3 then s else { s with gpr := s.gpr.set (r.val - 3) v (by omega) }

/-! ### The end of a command (60_exceptions.md R300, R310, R311; 20_memory.md R54)

The core has no trap mechanism (R313): an error is a status returned to the host. -/

/-- The 4-bit code of an error kind (R300). -/
def errorCode : ErrorKind → BitVec 4
  | .divideByZero => 1
  | .invalidLength => 2
  | .invalidRadix => 3
  | .invalidCharacter => 4
  | .unsupportedType => 5
  | .immutableConstantViolation => 6
  | .illegalCommand => 7

/-- The 4-bit code of a status (R300). -/
def statusCode : Status → BitVec 4
  | .ok => 0
  | .error e => errorCode e

/-- The place of an error kind in the priority order of R309, the first reported first. -/
def errorPriority : ErrorKind → Nat
  | .illegalCommand => 1
  | .immutableConstantViolation => 2
  | .unsupportedType => 3
  | .invalidRadix => 4
  | .invalidLength => 5
  | .divideByZero => 6
  | .invalidCharacter => 7

/-- The accepted command ends with a status: the core is busy until the host takes the response (20_memory.md R54). The status is
in `rspStatus` from the accepting edge on and stays there after the response is taken: the model's choice where `rsp_valid = 0`
(notes/assumptions/7.md). -/
def respond (st : Status) (s : State) : State :=
  { s with busy := true, rspPending := false, rspStatus := st }

/-- `raise E` (00_scope.md R9): the command ends with the error as its status and changes no register and no BUF byte
(60_exceptions.md R311). This is all an error does (R312, R313, R316). -/
def raise (e : ErrorKind) (s : State) : Result := .next (respond (.error e) s)

/-- The normal end of a command that writes one register: `x[rd] <- v`, `status <- OK`. -/
def completeReg (rd : Reg) (v : Word) (s : State) : Result := .next (respond .ok (writeReg s rd v))

/-- The normal end of a command that writes BUF bytes and no register. -/
def completeStore (addr : Nat) (bs : List Byte) (s : State) : Result :=
  .next (respond .ok { s with buf := s.buf.writeBytes addr bs })

/-- The normal end of a command that writes BUF bytes and one register. -/
def completeStoreReg (addr : Nat) (bs : List Byte) (rd : Reg) (v : Word) (s : State) : Result :=
  .next (respond .ok (writeReg { s with buf := s.buf.writeBytes addr bs } rd v))

/-- The destination check (60_exceptions.md R303; the third step of 30_encoding.md R80): a command that would write x0, x1 or
x2 ends with ImmutableConstantViolation, before any other error but IllegalCommand (R309). -/
def guardDest (rd : Reg) (s : State) (otherwise : Result) : Result :=
  if isConstant rd then raise .immutableConstantViolation s else otherwise

/-- A register-writing command whose outcome `r` is an error or the value of x[rd] (R310). -/
def finishReg (rd : Reg) (r : Except ErrorKind Word) (s : State) : Result :=
  guardDest rd s <|
    match r with
    | .error e => raise e s
    | .ok v => completeReg rd v s

end Sys2Proof.Machine
end

