-- ==== Sys2Proof/Machine/Operands.lean ====
section
/-! DEFINITION. Every operand form of the commands (10_state.md R24; 30_encoding.md R75; 44_serialize.md R230). -/

namespace Sys2Proof.Machine

/-- `zext_256` (00_scope.md R9, R10). -/
def zext {n : Nat} (v : BitVec n) : Word := v.setWidth 256

/-- The N-bit view `x[r][N-1:0]` (10_state.md R24). -/
def view (n : Nat) (s : State) (r : Reg) : BitVec n := (readReg s r).setWidth n

/-- Limb `k` of a register value: bits `64k+63` to `64k` (10_state.md R23). -/
def limbOf (v : Word) (k : Nat) : Limb := v.extractLsb' (64 * k) 64

/-- Limb 0 of a register (40_limb.md R100). -/
def limb0 (s : State) (r : Reg) : Limb := limbOf (readReg s r) 0

/-- The carry-in or borrow-in bit `x[r][0]` (40_limb.md R101, R102). -/
def carryBit (s : State) (r : Reg) : Bool := (readReg s r).getLsbD 0

/-- A value with limb `k` replaced (40_limb.md R109). -/
def setLimb (v : Word) (k : Nat) (l : Limb) : Word :=
  (v &&& ~~~ (zext (BitVec.allOnes 64) <<< (64 * k))) ||| (zext l <<< (64 * k))

/-- `sint_64(x[r][63:0])`: shift amounts and pow exponents (41_arith.md R132; 42_bitwise_shift_compare.md R169). -/
def sint64 (s : State) (r : Reg) : Int := (limb0 s r).toInt

/-- `sint_16(imm16)`: immediate shift amounts (42_bitwise_shift_compare.md R169). -/
def sint16 (imm16 : BitVec 16) : Int := imm16.toInt

/-- A BUF start address, `x[r] mod 256` (20_memory.md R41). -/
def bufAddr (s : State) (r : Reg) : Nat := (readReg s r).toNat % Config.bufBytes

/-- A length operand: the whole register, not truncated (44_serialize.md R230). -/
def lenOf (s : State) (r : Reg) : Nat := (readReg s r).toNat

end Sys2Proof.Machine
end

