-- ==== Sys2Proof/Machine/Flags.lean ====
section
/-! DEFINITION. The core has no flags (10_state.md R27). What other machines keep in flags is part of a command's result here:
carries and borrows stand at bit 64 of the destination, a comparison writes 0 or 1. -/

namespace Sys2Proof.Machine

/-- Sum and carry-out of ADC64 packed as one value: the sum at bits 63:0, the carry at bit 64 (40_limb.md R101). -/
def addWithCarry (a b : Limb) (cin : Bool) : Word := BitVec.ofNat 256 (a.toNat + b.toNat + cin.toNat)

/-- Difference and borrow-out of SBB64 packed as one value: the difference at bits 63:0, the borrow at bit 64 (40_limb.md
R102). -/
def subWithBorrow (a b : Limb) (bin : Bool) : Word :=
  let t : Int := (a.toNat : Int) - b.toNat - bin.toNat
  let diff : Nat := (t % 2 ^ 64).toNat
  let bout : Nat := if t < 0 then 1 else 0
  BitVec.ofNat 256 (bout * 2 ^ 64 + diff)

/-- A truth value as a register value: 1 or 0 (42_bitwise_shift_compare.md R182; 43_convert.md R200). -/
def truth (b : Bool) : Word := if b then 1 else 0

end Sys2Proof.Machine
end

