-- ==== Sys2Proof/Machine/Numeric.lean ====
section
/-! DEFINITION. The integer functions of the rules: powers, square roots, bit lengths, zero counts and shifts. -/

namespace Sys2Proof.Machine

/-- `bitlen(v)` (00_scope.md R9). -/
def bitlen (v : Nat) : Nat := if v = 0 then 0 else v.log2 + 1

/-- Square and multiply over the low `fuel` bits of `e`, modulo `m`: `acc * b^e mod m` (Laws/Numeric.lean). -/
def powModLoop (m : Nat) : (fuel : Nat) → (b e acc : Nat) → Nat
  | 0, _, _, acc => acc
  | fuel + 1, b, e, acc => powModLoop m fuel (b * b % m) (e / 2) (if e % 2 = 1 then acc * b % m else acc)

/-- `a^e mod m` for an exponent below 2^64 (41_arith.md R132). -/
def powMod (m a e : Nat) : Nat := powModLoop m 64 a e (1 % m)

/-- The power of 41_arith.md R132 to R134: negative exponents give Zero, exponent 0 gives One. -/
def powWrap (n : Nat) (a : BitVec n) (e : Int) : BitVec n :=
  if e < 0 then 0 else if e = 0 then 1 else BitVec.ofNat n (powMod (2 ^ n) a.toNat e.toNat)

/-- The square root bit by bit: `r` is a root of which the low `k` bits are still to be found. -/
def sqrtLoop (a : Nat) : (k : Nat) → (r : Nat) → Nat
  | 0, r => r
  | k + 1, r => sqrtLoop a k (if (r + 2 ^ k) ^ 2 ≤ a then r + 2 ^ k else r)

/-- The floor square root of an N-bit number (41_arith.md R135, R136). -/
def isqrt (n : Nat) (a : Nat) : Nat := sqrtLoop a (n / 2) 0

/-- Count of leading zeros: N − bitlen (42_bitwise_shift_compare.md R178, R179). -/
def clz {n : Nat} (a : BitVec n) : Nat := n - bitlen a.toNat

/-- Count of trailing zeros: the place of the lowest set bit, N for zero (42_bitwise_shift_compare.md R180, R181). -/
def ctz {n : Nat} (a : BitVec n) : Nat := ((List.range n).find? fun k => a.getLsbD k).getD n

/-- `shl_N(A, s)` for a signed amount (42_bitwise_shift_compare.md R169). -/
def shlSigned {n : Nat} (a : BitVec n) (amount : Int) : BitVec n :=
  if amount < 0 then 0 else if amount ≥ n then 0 else a <<< amount.toNat

/-- `shr_N(A, s)` for a signed amount: a logical shift (42_bitwise_shift_compare.md R169). -/
def shrSigned {n : Nat} (a : BitVec n) (amount : Int) : BitVec n :=
  if amount < 0 then 0 else if amount ≥ n then 0 else a >>> amount.toNat

end Sys2Proof.Machine
end

