-- ==== Sys2Proof/Machine/Shapes.lean ====
section
/-! DEFINITION. The shapes the register commands share: read the N-bit views, compute, write the zero-extended result
(10_state.md R24, R25, R35; 41_arith.md R120). -/

namespace Sys2Proof.Machine

/-- `x[rd] <- zext_256(f(A))`. -/
def unaryOp (n : Nat) (f : BitVec n → BitVec n) (rd ra : Reg) (s : State) : Result :=
  finishReg rd (.ok (zext (f (view n s ra)))) s

/-- `x[rd] <- zext_256(f(A, B))`. -/
def binaryOp (n : Nat) (f : BitVec n → BitVec n → BitVec n) (rd ra rb : Reg) (s : State) : Result :=
  finishReg rd (.ok (zext (f (view n s ra) (view n s rb)))) s

/-- As `binaryOp`, but B = 0 raises DivideByZero (60_exceptions.md R307). -/
def divideOp (n : Nat) (f : BitVec n → BitVec n → BitVec n) (rd ra rb : Reg) (s : State) : Result :=
  finishReg rd
    (if view n s rb = 0 then .error .divideByZero else .ok (zext (f (view n s ra) (view n s rb)))) s

/-- `x[rd] <- zext_256(f(A, sint_64(x[rb][63:0])))`: shifts and powers by a register (41_arith.md R132;
42_bitwise_shift_compare.md R169). -/
def signedAmountOp (n : Nat) (f : BitVec n → Int → BitVec n) (rd ra rb : Reg) (s : State) : Result :=
  finishReg rd (.ok (zext (f (view n s ra) (sint64 s rb)))) s

/-- `x[rd] <- zext_256(f(A, sint_16(imm16)))`: shifts by an immediate (42_bitwise_shift_compare.md R169). -/
def immAmountOp (n : Nat) (f : BitVec n → Int → BitVec n) (rd ra : Reg) (imm16 : BitVec 16) (s : State) : Result :=
  finishReg rd (.ok (zext (f (view n s ra) (sint16 imm16)))) s

/-- `x[rd] <- count(A)`: the zero counts (42_bitwise_shift_compare.md R178 to R181). -/
def countOp (n : Nat) (count : BitVec n → Nat) (rd ra : Reg) (s : State) : Result :=
  finishReg rd (.ok (BitVec.ofNat 256 (count (view n s ra)))) s

/-- `x[rd] <- 1 if the relation holds else 0` (42_bitwise_shift_compare.md R182). -/
def compareOp (n : Nat) (rel : BitVec n → BitVec n → Bool) (rd ra rb : Reg) (s : State) : Result :=
  finishReg rd (.ok (truth (rel (view n s ra) (view n s rb)))) s

end Sys2Proof.Machine
end

