-- ==== Sys2Proof/Machine/Arith.lean ====
section
/-! DEFINITION. The wraparound arithmetic commands (41_arith.md). -/

namespace Sys2Proof.Machine

/-- ADD.128: wrapping addition (R121). -/
def execAdd128 (rd ra rb : Reg) (s : State) : Result :=
  binaryOp 128 (· + ·) rd ra rb s

/-- ADD.256: wrapping addition (R122). -/
def execAdd256 (rd ra rb : Reg) (s : State) : Result :=
  binaryOp 256 (· + ·) rd ra rb s

/-- SUB.128: wrapping subtraction (R123). -/
def execSub128 (rd ra rb : Reg) (s : State) : Result :=
  binaryOp 128 (· - ·) rd ra rb s

/-- SUB.256: wrapping subtraction (R124). -/
def execSub256 (rd ra rb : Reg) (s : State) : Result :=
  binaryOp 256 (· - ·) rd ra rb s

/-- MUL.128: wrapping multiplication (R125). -/
def execMul128 (rd ra rb : Reg) (s : State) : Result :=
  binaryOp 128 (· * ·) rd ra rb s

/-- MUL.256: wrapping multiplication (R126). -/
def execMul256 (rd ra rb : Reg) (s : State) : Result :=
  binaryOp 256 (· * ·) rd ra rb s

/-- DIV.128: unsigned quotient (R127). -/
def execDiv128 (rd ra rb : Reg) (s : State) : Result :=
  divideOp 128 (· / ·) rd ra rb s

/-- DIV.256: unsigned quotient (R128). -/
def execDiv256 (rd ra rb : Reg) (s : State) : Result :=
  divideOp 256 (· / ·) rd ra rb s

/-- REM.128: unsigned remainder (R129). -/
def execRem128 (rd ra rb : Reg) (s : State) : Result :=
  divideOp 128 (· % ·) rd ra rb s

/-- REM.256: unsigned remainder (R130). -/
def execRem256 (rd ra rb : Reg) (s : State) : Result :=
  divideOp 256 (· % ·) rd ra rb s

/-- POW.128: wrapping power (R133). -/
def execPow128 (rd ra rb : Reg) (s : State) : Result :=
  signedAmountOp 128 (powWrap 128) rd ra rb s

/-- POW.256: wrapping power (R134). -/
def execPow256 (rd ra rb : Reg) (s : State) : Result :=
  signedAmountOp 256 (powWrap 256) rd ra rb s

/-- SQRT.128: floor square root (R135). -/
def execSqrt128 (rd ra : Reg) (s : State) : Result :=
  unaryOp 128 (fun a => BitVec.ofNat 128 (isqrt 128 a.toNat)) rd ra s

/-- SQRT.256: floor square root (R136). -/
def execSqrt256 (rd ra : Reg) (s : State) : Result :=
  unaryOp 256 (fun a => BitVec.ofNat 256 (isqrt 256 a.toNat)) rd ra s

/-- INC.128: in-place increment: x[rd] is source and destination (R137). -/
def execInc128 (rd : Reg) (s : State) : Result :=
  unaryOp 128 (· + 1) rd rd s

/-- INC.256: in-place increment: x[rd] is source and destination (R138). -/
def execInc256 (rd : Reg) (s : State) : Result :=
  unaryOp 256 (· + 1) rd rd s

/-- DEC.128: in-place decrement: x[rd] is source and destination (R139). -/
def execDec128 (rd : Reg) (s : State) : Result :=
  unaryOp 128 (· - 1) rd rd s

/-- DEC.256: in-place decrement: x[rd] is source and destination (R140). -/
def execDec256 (rd : Reg) (s : State) : Result :=
  unaryOp 256 (· - 1) rd rd s

/-- MULDIV.128: floor(A·B/C) of the exact product, truncated to 128 bits (R131). -/
def execMuldiv128 (rd ra rb rc : Reg) (s : State) : Result :=
  finishReg rd
    (if view 128 s rc = 0 then .error .divideByZero
     else .ok (zext (BitVec.ofNat 128 ((view 128 s ra).toNat * (view 128 s rb).toNat / (view 128 s rc).toNat)))) s

end Sys2Proof.Machine
end

