-- ==== Sys2Proof/Machine/Bitwise.lean ====
section
/-! DEFINITION. Bitwise operations, shifts and zero counts (42_bitwise_shift_compare.md R160 to R181). -/

namespace Sys2Proof.Machine

/-- AND.128: bitwise AND (R161). -/
def execAnd128 (rd ra rb : Reg) (s : State) : Result :=
  binaryOp 128 (· &&& ·) rd ra rb s

/-- AND.256: bitwise AND (R162). -/
def execAnd256 (rd ra rb : Reg) (s : State) : Result :=
  binaryOp 256 (· &&& ·) rd ra rb s

/-- OR.128: bitwise OR (R163). -/
def execOr128 (rd ra rb : Reg) (s : State) : Result :=
  binaryOp 128 (· ||| ·) rd ra rb s

/-- OR.256: bitwise OR (R164). -/
def execOr256 (rd ra rb : Reg) (s : State) : Result :=
  binaryOp 256 (· ||| ·) rd ra rb s

/-- XOR.128: bitwise exclusive OR (R165). -/
def execXor128 (rd ra rb : Reg) (s : State) : Result :=
  binaryOp 128 (· ^^^ ·) rd ra rb s

/-- XOR.256: bitwise exclusive OR (R166). -/
def execXor256 (rd ra rb : Reg) (s : State) : Result :=
  binaryOp 256 (· ^^^ ·) rd ra rb s

/-- NOT.128: bitwise complement (R167). -/
def execNot128 (rd ra : Reg) (s : State) : Result :=
  unaryOp 128 (~~~ ·) rd ra s

/-- NOT.256: bitwise complement (R168). -/
def execNot256 (rd ra : Reg) (s : State) : Result :=
  unaryOp 256 (~~~ ·) rd ra s

/-- SHL.128: left shift by a register amount (R170). -/
def execShl128 (rd ra rb : Reg) (s : State) : Result :=
  signedAmountOp 128 shlSigned rd ra rb s

/-- SHL.256: left shift by a register amount (R171). -/
def execShl256 (rd ra rb : Reg) (s : State) : Result :=
  signedAmountOp 256 shlSigned rd ra rb s

/-- SHR.128: logical right shift by a register amount (R172). -/
def execShr128 (rd ra rb : Reg) (s : State) : Result :=
  signedAmountOp 128 shrSigned rd ra rb s

/-- SHR.256: logical right shift by a register amount (R173). -/
def execShr256 (rd ra rb : Reg) (s : State) : Result :=
  signedAmountOp 256 shrSigned rd ra rb s

/-- SHLI.128: left shift by a signed immediate (R174). -/
def execShli128 (rd ra : Reg) (imm16 : BitVec 16) (s : State) : Result :=
  immAmountOp 128 shlSigned rd ra imm16 s

/-- SHLI.256: left shift by a signed immediate (R175). -/
def execShli256 (rd ra : Reg) (imm16 : BitVec 16) (s : State) : Result :=
  immAmountOp 256 shlSigned rd ra imm16 s

/-- SHRI.128: logical right shift by a signed immediate (R176). -/
def execShri128 (rd ra : Reg) (imm16 : BitVec 16) (s : State) : Result :=
  immAmountOp 128 shrSigned rd ra imm16 s

/-- SHRI.256: logical right shift by a signed immediate (R177). -/
def execShri256 (rd ra : Reg) (imm16 : BitVec 16) (s : State) : Result :=
  immAmountOp 256 shrSigned rd ra imm16 s

/-- CLZ.128: count of leading zeros (R178). -/
def execClz128 (rd ra : Reg) (s : State) : Result :=
  countOp 128 clz rd ra s

/-- CLZ.256: count of leading zeros (R179). -/
def execClz256 (rd ra : Reg) (s : State) : Result :=
  countOp 256 clz rd ra s

/-- CTZ.128: count of trailing zeros (R180). -/
def execCtz128 (rd ra : Reg) (s : State) : Result :=
  countOp 128 ctz rd ra s

/-- CTZ.256: count of trailing zeros (R181). -/
def execCtz256 (rd ra : Reg) (s : State) : Result :=
  countOp 256 ctz rd ra s

end Sys2Proof.Machine
end

