-- ==== Sys2Proof/Machine/Compare.lean ====
section
/-! DEFINITION. Comparisons and set (42_bitwise_shift_compare.md R182 to R194). -/

namespace Sys2Proof.Machine

/-- CMPEQ.128: equality (R183). -/
def execCmpeq128 (rd ra rb : Reg) (s : State) : Result :=
  compareOp 128 (· == ·) rd ra rb s

/-- CMPEQ.256: equality (R184). -/
def execCmpeq256 (rd ra rb : Reg) (s : State) : Result :=
  compareOp 256 (· == ·) rd ra rb s

/-- CMPLT.128: unsigned less-than (R185). -/
def execCmplt128 (rd ra rb : Reg) (s : State) : Result :=
  compareOp 128 (·.ult ·) rd ra rb s

/-- CMPLT.256: unsigned less-than (R186). -/
def execCmplt256 (rd ra rb : Reg) (s : State) : Result :=
  compareOp 256 (·.ult ·) rd ra rb s

/-- CMPLE.128: unsigned less-or-equal (R187). -/
def execCmple128 (rd ra rb : Reg) (s : State) : Result :=
  compareOp 128 (·.ule ·) rd ra rb s

/-- CMPLE.256: unsigned less-or-equal (R188). -/
def execCmple256 (rd ra rb : Reg) (s : State) : Result :=
  compareOp 256 (·.ule ·) rd ra rb s

/-- CMPGT.128: unsigned greater-than (R189). -/
def execCmpgt128 (rd ra rb : Reg) (s : State) : Result :=
  compareOp 128 (fun a b => b.ult a) rd ra rb s

/-- CMPGT.256: unsigned greater-than (R190). -/
def execCmpgt256 (rd ra rb : Reg) (s : State) : Result :=
  compareOp 256 (fun a b => b.ult a) rd ra rb s

/-- CMPGE.128: unsigned greater-or-equal (R191). -/
def execCmpge128 (rd ra rb : Reg) (s : State) : Result :=
  compareOp 128 (fun a b => b.ule a) rd ra rb s

/-- CMPGE.256: unsigned greater-or-equal (R192). -/
def execCmpge256 (rd ra rb : Reg) (s : State) : Result :=
  compareOp 256 (fun a b => b.ule a) rd ra rb s

/-- SET.128: copies the N-bit view of x[ra] (R193). -/
def execSet128 (rd ra : Reg) (s : State) : Result :=
  unaryOp 128 id rd ra s

/-- SET.256: copies the N-bit view of x[ra] (R194). -/
def execSet256 (rd ra : Reg) (s : State) : Result :=
  unaryOp 256 id rd ra s

end Sys2Proof.Machine
end

