-- ==== Sys2Proof/Machine/Float.lean ====
section
/-! DEFINITION. IEEE 754 bit patterns and the conversions between them and integers (43_convert.md R202 to R206). -/

namespace Sys2Proof.Machine

/-- Width of the exponent field (R202). -/
def expBits : FloatFormat → Nat
  | .binary32 => 8
  | .binary64 => 11

/-- Width of the fraction field (R202). -/
def fracBits : FloatFormat → Nat
  | .binary32 => 23
  | .binary64 => 52

/-- The exponent bias (R202). -/
def expBias : FloatFormat → Nat
  | .binary32 => 127
  | .binary64 => 1023

/-- The fraction field of a pattern (R202). -/
def fracField (fmt : FloatFormat) (bits : Nat) : Nat := bits % 2 ^ fracBits fmt

/-- The exponent field of a pattern (R202). -/
def expField (fmt : FloatFormat) (bits : Nat) : Nat := bits / 2 ^ fracBits fmt % 2 ^ expBits fmt

/-- The sign bit of a pattern (R202). -/
def signField (fmt : FloatFormat) (bits : Nat) : Nat := bits / 2 ^ (fracBits fmt + expBits fmt) % 2

/-- A NaN or an infinity: the exponent field is all ones (R206). -/
def isNonFinite (fmt : FloatFormat) (bits : Nat) : Bool := expField fmt bits = 2 ^ expBits fmt - 1

/-- The significand m of a finite pattern, with value (−1)^s · m · 2^q (R202, R205). -/
def significand (fmt : FloatFormat) (bits : Nat) : Nat :=
  if expField fmt bits = 0 then fracField fmt bits else 2 ^ fracBits fmt + fracField fmt bits

/-- The exponent q of a finite pattern, with value (−1)^s · m · 2^q (R202, R205). -/
def scale (fmt : FloatFormat) (bits : Nat) : Int :=
  (if expField fmt bits = 0 then 1 else (expField fmt bits : Int)) - expBias fmt - fracBits fmt

/-- The whole part of the magnitude of a finite pattern: truncation toward zero (R205). -/
def wholePart (fmt : FloatFormat) (bits : Nat) : Nat :=
  if scale fmt bits ≥ 0 then significand fmt bits * 2 ^ (scale fmt bits).toNat
  else significand fmt bits / 2 ^ (-scale fmt bits).toNat

/-- `f2u_N(bits, fmt)` of a finite pattern: the signed whole part modulo 2^N (R205). -/
def floatToUint (n : Nat) (fmt : FloatFormat) (bits : Nat) : BitVec n :=
  BitVec.ofInt n (if signField fmt bits = 1 then -(wholePart fmt bits : Int) else wholePart fmt bits)

/-- FROM of a float pattern: R205 for a finite one, the open parameter F2U_NONFINITE for a NaN or an infinity (R206). -/
def fromFloat (n : Nat) (fmt : FloatFormat) (bits : BitVec 64) : BitVec n :=
  if isNonFinite fmt bits.toNat then Config.f2uNonfinite n fmt bits else floatToUint n fmt bits.toNat

/-- The significand of `p` bits and the exponent E of a positive integer rounded to nearest, ties to even (R203, R204). -/
def roundToNearestEven (p v : Nat) : Nat × Nat :=
  let len := bitlen v
  if len ≤ p then (v * 2 ^ (p - len), len - 1)
  else
    let drop := len - p
    let sig := v / 2 ^ drop
    let rem := v % 2 ^ drop
    let half := 2 ^ (drop - 1)
    let sig' := if rem > half ∨ (rem = half ∧ sig % 2 = 1) then sig + 1 else sig
    if sig' = 2 ^ p then (2 ^ (p - 1), len) else (sig', len - 1)

/-- The pattern of the integer `v` rounded to nearest even: `u2f64` (R203) and `u2f32` (R204). An exponent past the format's
range gives +infinity, which only binary32 can meet for v < 2^256. -/
def uintToFloat (fmt : FloatFormat) (v : Nat) : Nat :=
  if v = 0 then 0
  else
    let r := roundToNearestEven (fracBits fmt + 1) v
    if r.2 > expBias fmt then (2 ^ expBits fmt - 1) * 2 ^ fracBits fmt
    else (r.2 + expBias fmt) * 2 ^ fracBits fmt + (r.1 - 2 ^ fracBits fmt)

end Sys2Proof.Machine
end

