-- ==== Sys2Proof/Machine/Convert.lean ====
section
/-! DEFINITION. The generic conversions FROM and TO (43_convert.md). -/

namespace Sys2Proof.Machine

/-- The ambient types of 43_convert.md R200. -/
inductive AmbientType where
  | bool
  | unsigned (bits : Nat)
  | signed (bits : Nat)
  | float (fmt : FloatFormat)
  | other
deriving DecidableEq, Repr

/-- The type a type code names; codes 12 to 255 name none (R200). -/
def ambientType? (t : Byte) : Option AmbientType :=
  match t.toNat with
  | 0 => some .bool
  | 1 => some (.unsigned 8)
  | 2 => some (.unsigned 16)
  | 3 => some (.unsigned 32)
  | 4 => some (.unsigned 64)
  | 5 => some (.signed 8)
  | 6 => some (.signed 16)
  | 7 => some (.signed 32)
  | 8 => some (.signed 64)
  | 9 => some (.float .binary32)
  | 10 => some (.float .binary64)
  | 11 => some .other
  | _ => none

/-- The width of a float pattern in a register (R200, R202). -/
def floatWidth : FloatFormat → Nat
  | .binary32 => 32
  | .binary64 => 64

/-- The width of the other fixed-width type: 256 for N = 128, 128 for N = 256 (R200). -/
def otherWidth (n : Nat) : Nat := if n = 128 then 256 else 128

/-- What FROM.N makes of the register value `x` (R200, R207, R208). -/
def fromAmbient (n : Nat) (x : Word) : AmbientType → BitVec n
  | .bool => if x = 0 then 0 else 1
  | .unsigned w => (x.setWidth w).setWidth n
  | .signed w => (x.setWidth w).signExtend n
  | .float fmt => fromFloat n fmt ((x.setWidth (floatWidth fmt)).setWidth 64)
  | .other => (x.setWidth (otherWidth n)).setWidth n

/-- What TO.N makes of the N-bit value `a`, as a register value (R200, R209, R210). -/
def toAmbient (n : Nat) (a : BitVec n) : AmbientType → Word
  | .bool => if a = 0 then 0 else 1
  | .unsigned w => zext (a.setWidth w)
  | .signed w => zext (a.setWidth w)
  | .float fmt => BitVec.ofNat 256 (uintToFloat fmt a.toNat)
  | .other => zext (a.setWidth (otherWidth n))

/-- FROM.N: a type code that names no type raises UnsupportedType (R201). -/
def fromOp (n : Nat) (rd ra : Reg) (t : Byte) (s : State) : Result :=
  finishReg rd
    (match ambientType? t with
     | none => .error .unsupportedType
     | some ty => .ok (zext (fromAmbient n (readReg s ra) ty))) s

/-- TO.N: a type code that names no type raises UnsupportedType (R201). -/
def toOp (n : Nat) (rd ra : Reg) (t : Byte) (s : State) : Result :=
  finishReg rd
    (match ambientType? t with
     | none => .error .unsupportedType
     | some ty => .ok (toAmbient n (view n s ra) ty)) s

/-- FROM.128: construct an N-bit value from an ambient value (R207). -/
def execFrom128 (rd ra : Reg) (t : Byte) (s : State) : Result :=
  fromOp 128 rd ra t s

/-- FROM.256: construct an N-bit value from an ambient value (R208). -/
def execFrom256 (rd ra : Reg) (t : Byte) (s : State) : Result :=
  fromOp 256 rd ra t s

/-- TO.128: produce an ambient value from an N-bit value (R209). -/
def execTo128 (rd ra : Reg) (t : Byte) (s : State) : Result :=
  toOp 128 rd ra t s

/-- TO.256: produce an ambient value from an N-bit value (R210). -/
def execTo256 (rd ra : Reg) (t : Byte) (s : State) : Result :=
  toOp 256 rd ra t s

end Sys2Proof.Machine
end

