-- ==== Sys2Proof/Machine/Limb.lean ====
section
/-! DEFINITION. The limb primitives and value constructors (40_limb.md). -/

namespace Sys2Proof.Machine

/-- ADC64: 64-bit add with carry (R101). -/
def execAdc64 (rd ra rb rc : Reg) (s : State) : Result :=
  finishReg rd (.ok (addWithCarry (limb0 s ra) (limb0 s rb) (carryBit s rc))) s

/-- SBB64: 64-bit subtract with borrow (R102). -/
def execSbb64 (rd ra rb rc : Reg) (s : State) : Result :=
  finishReg rd (.ok (subWithBorrow (limb0 s ra) (limb0 s rb) (carryBit s rc))) s

/-- WMUL64: 64×64→128 widening multiply (R103). -/
def execWmul64 (rd ra rb : Reg) (s : State) : Result :=
  finishReg rd (.ok (BitVec.ofNat 256 ((limb0 s ra).toNat * (limb0 s rb).toNat))) s

/-- MAC64: multiply-accumulate; the accumulator is limb 0 of x[rd] (R104). -/
def execMac64 (rd ra rb rc : Reg) (s : State) : Result :=
  finishReg rd
    (.ok (BitVec.ofNat 256
      ((limb0 s rd).toNat + (limb0 s ra).toNat * (limb0 s rb).toNat + (limb0 s rc).toNat))) s

/-- Quotient in bits 127:0 and remainder in bits 255:128; a zero divisor raises DivideByZero (R105, R106). -/
def divmodOp (rd : Reg) (n d : BitVec 128) (s : State) : Result :=
  finishReg rd (if d = 0 then .error .divideByZero else .ok ((n % d) ++ (n / d))) s

/-- DIVMOD128: 128-by-128 division (R105). -/
def execDivmod128 (rd ra rb : Reg) (s : State) : Result :=
  divmodOp rd (view 128 s ra) (view 128 s rb) s

/-- DIVMOD128X64: 128-by-64 division (R106). -/
def execDivmod128x64 (rd ra rb : Reg) (s : State) : Result :=
  divmodOp rd (view 128 s ra) ((limb0 s rb).setWidth 128) s

/-- LDI: load a 16-bit unsigned immediate (R107). -/
def execLdi (rd : Reg) (imm16 : BitVec 16) (s : State) : Result :=
  finishReg rd (.ok (zext imm16)) s

/-- A limb index above 3 is an illegal command, whose word the decoder refuses (30_encoding.md R78; 60_exceptions.md R302): a
term that carries one ends as its word would (notes/assumptions/17.md). -/
def guardLimbIndex (k : Byte) (s : State) (otherwise : Result) : Result :=
  if limbIndexOk k then otherwise else raise .illegalCommand s

/-- LIMBGET: extract one limb (R108). -/
def execLimbget (rd ra : Reg) (k : Byte) (s : State) : Result :=
  guardLimbIndex k s (finishReg rd (.ok (zext (limbOf (readReg s ra) k.toNat))) s)

/-- LIMBSET: replace one limb (R109). -/
def execLimbset (rd ra rb : Reg) (k : Byte) (s : State) : Result :=
  guardLimbIndex k s (finishReg rd (.ok (setLimb (readReg s ra) k.toNat (limb0 s rb))) s)

end Sys2Proof.Machine
end

