-- ==== Sys2Proof/Machine/Text.lean ====
section
/-! DEFINITION. Digits and strings in radix 10 and 16 (44_serialize.md R239, R240, R243). -/

namespace Sys2Proof.Machine

/-- The radices PARSE and FMT accept (60_exceptions.md R305). -/
def radixOk (radix : Byte) : Bool := radix = 10 ∨ radix = 16

/-- The value of a character in a radix, if it is a digit of it (R239). -/
def digitValue? (radix : Nat) (c : Byte) : Option Nat :=
  if 0x30 ≤ c.toNat ∧ c.toNat ≤ 0x39 then some (c.toNat - 0x30)
  else if radix = 16 ∧ 0x61 ≤ c.toNat ∧ c.toNat ≤ 0x66 then some (c.toNat - 0x61 + 10)
  else if radix = 16 ∧ 0x41 ≤ c.toNat ∧ c.toNat ≤ 0x46 then some (c.toNat - 0x41 + 10)
  else none

/-- The digit values of a string, if every character is a digit of the radix (R239; 60_exceptions.md R308). -/
def digitValues? (radix : Nat) : List Byte → Option (List Nat)
  | [] => some []
  | c :: cs =>
    match digitValue? radix c, digitValues? radix cs with
    | some d, some ds => some (d :: ds)
    | _, _ => none

/-- The parse accumulation of R240: most significant digit first, each step reduced modulo 2^N. -/
def accumulate (n radix : Nat) (ds : List Nat) : Nat :=
  ds.foldl (fun r d => (r * radix + d) % 2 ^ n) 0

/-- The character of a digit value: 0x30 to 0x39, then 0x61 to 0x66 (R243). -/
def digitChar (d : Nat) : Byte := if d < 10 then BitVec.ofNat 8 (0x30 + d) else BitVec.ofNat 8 (0x61 + (d - 10))

/-- The digits of a number, least significant first, none for 0; `fuel` bounds their number. -/
def digitsLE (radix : Nat) : (fuel : Nat) → (v : Nat) → List Nat
  | 0, _ => []
  | fuel + 1, v => if v = 0 then [] else v % radix :: digitsLE radix fuel (v / radix)

/-- `digits(V, radix)` (R243): "0" for 0, else the digits most significant first with no leading zero. A number of N bits has at
most N digits in any radix, so N is fuel enough. -/
def formatDigits (n radix v : Nat) : List Byte :=
  if v = 0 then [digitChar 0] else ((digitsLE radix n v).map digitChar).reverse

end Sys2Proof.Machine
end

