-- ==== Sys2Proof/Machine/Serialize.lean ====
section
/-! DEFINITION. The serializers: byte arrays and strings in BUF (44_serialize.md). -/

namespace Sys2Proof.Machine

/-- BLDLE.N and BLDBE.N: destination check, then length check, then the read; a byte that nothing has written stops the machine
(44_serialize.md R231; 10_state.md R34). -/
def loadOp (n : Nat) (decodeBytes : List Byte → Nat) (rd ra rb : Reg) (s : State) : Result :=
  guardDest rd s <|
    if lenOf s rb ≠ n / 8 then raise .invalidLength s
    else
      match s.buf.readBytes (bufAddr s ra) (n / 8) with
      | .error a => .fault (.bufByteNeverWritten a)
      | .ok bs => completeReg rd (BitVec.ofNat 256 (decodeBytes bs)) s

/-- BSTLE.N and BSTBE.N: no register is written, so x0 to x2 are legal sources (R235; 60_exceptions.md R303). -/
def storeOp (n : Nat) (encodeBytes : BitVec n → List Byte) (rs ra rb : Reg) (s : State) : Result :=
  if lenOf s rb ≠ n / 8 then raise .invalidLength s
  else completeStore (bufAddr s ra) (encodeBytes (view n s rs)) s

/-- PARSE.N: destination, radix and length checks, then the read, then the characters (R241; 60_exceptions.md R309). Where some
byte of the string has no value the command faults, whatever the other bytes are (notes/assumptions/19.md). -/
def parseOp (n : Nat) (rd ra rb : Reg) (radix : Byte) (s : State) : Result :=
  guardDest rd s <|
    if radixOk radix = false then raise .invalidRadix s
    else if lenOf s rb > Config.bufBytes then raise .invalidLength s
    else
      match s.buf.readBytes (bufAddr s ra) (lenOf s rb) with
      | .error a => .fault (.bufByteNeverWritten a)
      | .ok bs =>
        match digitValues? radix.toNat bs with
        | none => raise .invalidCharacter s
        | some ds => completeReg rd (BitVec.ofNat 256 (accumulate n radix.toNat ds)) s

/-- FMT.N: destination and radix checks, then the string is written and its length goes to x[rd] (R244). -/
def fmtOp (n : Nat) (rd ra rb : Reg) (radix : Byte) (s : State) : Result :=
  guardDest rd s <|
    if radixOk radix = false then raise .invalidRadix s
    else
      let str := formatDigits n radix.toNat (view n s rb).toNat
      completeStoreReg (bufAddr s ra) str rd (BitVec.ofNat 256 str.length) s

/-- BLDLE.128: decode little-endian bytes (R231). -/
def execBldle128 (rd ra rb : Reg) (s : State) : Result :=
  loadOp 128 fromLE rd ra rb s

/-- BLDLE.256: decode little-endian bytes (R232). -/
def execBldle256 (rd ra rb : Reg) (s : State) : Result :=
  loadOp 256 fromLE rd ra rb s

/-- BLDBE.128: decode big-endian bytes (R233). -/
def execBldbe128 (rd ra rb : Reg) (s : State) : Result :=
  loadOp 128 fromBE rd ra rb s

/-- BLDBE.256: decode big-endian bytes (R234). -/
def execBldbe256 (rd ra rb : Reg) (s : State) : Result :=
  loadOp 256 fromBE rd ra rb s

/-- BSTLE.128: encode as little-endian bytes (R235). -/
def execBstle128 (rs ra rb : Reg) (s : State) : Result :=
  storeOp 128 (leBytes 16) rs ra rb s

/-- BSTLE.256: encode as little-endian bytes (R236). -/
def execBstle256 (rs ra rb : Reg) (s : State) : Result :=
  storeOp 256 (leBytes 32) rs ra rb s

/-- BSTBE.128: encode as big-endian bytes (R237). -/
def execBstbe128 (rs ra rb : Reg) (s : State) : Result :=
  storeOp 128 (beBytes 16) rs ra rb s

/-- BSTBE.256: encode as big-endian bytes (R238). -/
def execBstbe256 (rs ra rb : Reg) (s : State) : Result :=
  storeOp 256 (beBytes 32) rs ra rb s

/-- PARSE.128: parse a string in BUF (R241). -/
def execParse128 (rd ra rb : Reg) (radix : Byte) (s : State) : Result :=
  parseOp 128 rd ra rb radix s

/-- PARSE.256: parse a string in BUF (R242). -/
def execParse256 (rd ra rb : Reg) (radix : Byte) (s : State) : Result :=
  parseOp 256 rd ra rb radix s

/-- FMT.128: format a value as a string in BUF (R244). -/
def execFmt128 (rd ra rb : Reg) (radix : Byte) (s : State) : Result :=
  fmtOp 128 rd ra rb radix s

/-- FMT.256: format a value as a string in BUF (R245). -/
def execFmt256 (rd ra rb : Reg) (radix : Byte) (s : State) : Result :=
  fmtOp 256 rd ra rb radix s

end Sys2Proof.Machine
end

