-- ==== Sys2Proof/Machine/Dispatch.lean ====
section
/-! DEFINITION. The dispatch: one arm per command, each one call of the command's meaning. -/

namespace Sys2Proof.Machine

def exec (i : Instr) (s : State) : Host.Outcome State Fault Refusal :=
  match i with
  -- Machine/Limb.lean
  | .adc64 rd ra rb rc => Sys2Proof.Machine.execAdc64 rd ra rb rc s
  | .sbb64 rd ra rb rc => Sys2Proof.Machine.execSbb64 rd ra rb rc s
  | .wmul64 rd ra rb => Sys2Proof.Machine.execWmul64 rd ra rb s
  | .mac64 rd ra rb rc => Sys2Proof.Machine.execMac64 rd ra rb rc s
  | .divmod128 rd ra rb => Sys2Proof.Machine.execDivmod128 rd ra rb s
  | .divmod128x64 rd ra rb => Sys2Proof.Machine.execDivmod128x64 rd ra rb s
  | .ldi rd imm16 => Sys2Proof.Machine.execLdi rd imm16 s
  | .limbget rd ra k => Sys2Proof.Machine.execLimbget rd ra k s
  | .limbset rd ra rb k => Sys2Proof.Machine.execLimbset rd ra rb k s
  -- Machine/Arith.lean
  | .add128 rd ra rb => Sys2Proof.Machine.execAdd128 rd ra rb s
  | .sub128 rd ra rb => Sys2Proof.Machine.execSub128 rd ra rb s
  | .mul128 rd ra rb => Sys2Proof.Machine.execMul128 rd ra rb s
  | .div128 rd ra rb => Sys2Proof.Machine.execDiv128 rd ra rb s
  | .rem128 rd ra rb => Sys2Proof.Machine.execRem128 rd ra rb s
  | .muldiv128 rd ra rb rc => Sys2Proof.Machine.execMuldiv128 rd ra rb rc s
  | .pow128 rd ra rb => Sys2Proof.Machine.execPow128 rd ra rb s
  | .sqrt128 rd ra => Sys2Proof.Machine.execSqrt128 rd ra s
  -- Machine/Bitwise.lean
  | .and128 rd ra rb => Sys2Proof.Machine.execAnd128 rd ra rb s
  | .or128 rd ra rb => Sys2Proof.Machine.execOr128 rd ra rb s
  | .xor128 rd ra rb => Sys2Proof.Machine.execXor128 rd ra rb s
  | .not128 rd ra => Sys2Proof.Machine.execNot128 rd ra s
  | .shl128 rd ra rb => Sys2Proof.Machine.execShl128 rd ra rb s
  | .shr128 rd ra rb => Sys2Proof.Machine.execShr128 rd ra rb s
  | .shli128 rd ra imm16 => Sys2Proof.Machine.execShli128 rd ra imm16 s
  | .shri128 rd ra imm16 => Sys2Proof.Machine.execShri128 rd ra imm16 s
  | .clz128 rd ra => Sys2Proof.Machine.execClz128 rd ra s
  | .ctz128 rd ra => Sys2Proof.Machine.execCtz128 rd ra s
  -- Machine/Compare.lean
  | .cmpeq128 rd ra rb => Sys2Proof.Machine.execCmpeq128 rd ra rb s
  | .cmplt128 rd ra rb => Sys2Proof.Machine.execCmplt128 rd ra rb s
  | .cmple128 rd ra rb => Sys2Proof.Machine.execCmple128 rd ra rb s
  | .cmpgt128 rd ra rb => Sys2Proof.Machine.execCmpgt128 rd ra rb s
  | .cmpge128 rd ra rb => Sys2Proof.Machine.execCmpge128 rd ra rb s
  -- Machine/Arith.lean
  | .inc128 rd => Sys2Proof.Machine.execInc128 rd s
  | .dec128 rd => Sys2Proof.Machine.execDec128 rd s
  -- Machine/Compare.lean
  | .set128 rd ra => Sys2Proof.Machine.execSet128 rd ra s
  -- Machine/Convert.lean
  | .from128 rd ra t => Sys2Proof.Machine.execFrom128 rd ra t s
  | .to128 rd ra t => Sys2Proof.Machine.execTo128 rd ra t s
  -- Machine/Serialize.lean
  | .bldle128 rd ra rb => Sys2Proof.Machine.execBldle128 rd ra rb s
  | .bldbe128 rd ra rb => Sys2Proof.Machine.execBldbe128 rd ra rb s
  | .bstle128 rs ra rb => Sys2Proof.Machine.execBstle128 rs ra rb s
  | .bstbe128 rs ra rb => Sys2Proof.Machine.execBstbe128 rs ra rb s
  | .parse128 rd ra rb radix => Sys2Proof.Machine.execParse128 rd ra rb radix s
  | .fmt128 rd ra rb radix => Sys2Proof.Machine.execFmt128 rd ra rb radix s
  -- Machine/Arith.lean
  | .add256 rd ra rb => Sys2Proof.Machine.execAdd256 rd ra rb s
  | .sub256 rd ra rb => Sys2Proof.Machine.execSub256 rd ra rb s
  | .mul256 rd ra rb => Sys2Proof.Machine.execMul256 rd ra rb s
  | .div256 rd ra rb => Sys2Proof.Machine.execDiv256 rd ra rb s
  | .rem256 rd ra rb => Sys2Proof.Machine.execRem256 rd ra rb s
  | .pow256 rd ra rb => Sys2Proof.Machine.execPow256 rd ra rb s
  | .sqrt256 rd ra => Sys2Proof.Machine.execSqrt256 rd ra s
  -- Machine/Bitwise.lean
  | .and256 rd ra rb => Sys2Proof.Machine.execAnd256 rd ra rb s
  | .or256 rd ra rb => Sys2Proof.Machine.execOr256 rd ra rb s
  | .xor256 rd ra rb => Sys2Proof.Machine.execXor256 rd ra rb s
  | .not256 rd ra => Sys2Proof.Machine.execNot256 rd ra s
  | .shl256 rd ra rb => Sys2Proof.Machine.execShl256 rd ra rb s
  | .shr256 rd ra rb => Sys2Proof.Machine.execShr256 rd ra rb s
  | .shli256 rd ra imm16 => Sys2Proof.Machine.execShli256 rd ra imm16 s
  | .shri256 rd ra imm16 => Sys2Proof.Machine.execShri256 rd ra imm16 s
  | .clz256 rd ra => Sys2Proof.Machine.execClz256 rd ra s
  | .ctz256 rd ra => Sys2Proof.Machine.execCtz256 rd ra s
  -- Machine/Compare.lean
  | .cmpeq256 rd ra rb => Sys2Proof.Machine.execCmpeq256 rd ra rb s
  | .cmplt256 rd ra rb => Sys2Proof.Machine.execCmplt256 rd ra rb s
  | .cmple256 rd ra rb => Sys2Proof.Machine.execCmple256 rd ra rb s
  | .cmpgt256 rd ra rb => Sys2Proof.Machine.execCmpgt256 rd ra rb s
  | .cmpge256 rd ra rb => Sys2Proof.Machine.execCmpge256 rd ra rb s
  -- Machine/Arith.lean
  | .inc256 rd => Sys2Proof.Machine.execInc256 rd s
  | .dec256 rd => Sys2Proof.Machine.execDec256 rd s
  -- Machine/Compare.lean
  | .set256 rd ra => Sys2Proof.Machine.execSet256 rd ra s
  -- Machine/Convert.lean
  | .from256 rd ra t => Sys2Proof.Machine.execFrom256 rd ra t s
  | .to256 rd ra t => Sys2Proof.Machine.execTo256 rd ra t s
  -- Machine/Serialize.lean
  | .bldle256 rd ra rb => Sys2Proof.Machine.execBldle256 rd ra rb s
  | .bldbe256 rd ra rb => Sys2Proof.Machine.execBldbe256 rd ra rb s
  | .bstle256 rs ra rb => Sys2Proof.Machine.execBstle256 rs ra rb s
  | .bstbe256 rs ra rb => Sys2Proof.Machine.execBstbe256 rs ra rb s
  | .parse256 rd ra rb radix => Sys2Proof.Machine.execParse256 rd ra rb radix s
  | .fmt256 rd ra rb radix => Sys2Proof.Machine.execFmt256 rd ra rb radix s

end Sys2Proof.Machine
end

