-- ==== Sys2Proof/Machine/Handshake.lean ====
section
/-! DEFINITION. The ports and what one rising edge of `clk` does (20_memory.md R53 to R56; 70_reset_and_hazards.md R340 to R342). -/

namespace Sys2Proof.Machine

/-! ### The output ports (20_memory.md R53) -/

/-- `cmd_ready`: not busy outside reset, 0 in reset (R53; 70_reset_and_hazards.md R340). -/
def cmdReady (s : State) : Bool := !s.busy && !s.inReset

/-- `rsp_valid` (R53). -/
def rspValid (s : State) : Bool := s.rspPending

/-- `rsp_status`: the command's status while `rsp_valid = 1` (R53, R54). The spec does not say what it shows while
`rsp_valid = 0`; that it then shows `rspStatus` all the same is the model's choice (notes/assumptions/7.md). -/
def rspStatusPort (s : State) : BitVec 4 := statusCode s.rspStatus

/-! ### Reset (70_reset_and_hazards.md R340 to R342) -/

/-- A rising edge with `rst = 1`: the interface goes idle, a command in progress is abandoned with no response (R341), nothing
else at this edge has an effect (R340). x3 to x15 and BUF become unspecified (R342; 10_state.md R33, R34): the registers take
free values of this reset and no BUF byte has a value (notes/assumptions/8.md). `hb_rdata` is held (notes/assumptions/6.md). -/
def resetEdge (s : State) : State :=
  { s with
    gpr := Vector.ofFn fun i => Config.freeWord (s.resetCount + 1) (i.val + 3)
    buf := []
    busy := false
    rspPending := false
    inReset := true
    resetCount := s.resetCount + 1 }

/-! ### The host BUF port (20_memory.md R55) -/

/-- A host write: `BUF[hb_addr] <- hb_wdata`. The rule fixes `hb_rdata` only until the next host access, so after this one it is
a free byte (notes/assumptions/4.md). -/
def hostWrite (addr data : Byte) (s : State) : State :=
  { s with
    buf := s.buf.write addr.toNat data
    hbRdata := Config.freeByte s.freeCount
    freeCount := s.freeCount + 1 }

/-- `BUF[addr]` as the host sees it: for a byte that nothing has written since reset, the unspecified byte that reset left there
(10_state.md R34; 93_implementation_defined.md U2; notes/assumptions/3.md). -/
def hostByte (s : State) (addr : Byte) : Byte :=
  (s.buf.read addr.toNat).getD (Config.resetByte s.resetCount addr.toNat)

/-- A host read: `hb_rdata` holds `BUF[hb_addr]`. It changes nothing else, so repeating it gives the same byte (20_memory.md
R50). -/
def hostRead (addr : Byte) (s : State) : State := { s with hbRdata := hostByte s addr }

/-- The host's access at an edge where `busy = 0`. -/
def hostAccess (e : Edge) (s : State) : State :=
  if e.hbEn then
    if e.hbWe then hostWrite e.hbAddr e.hbWdata s else hostRead e.hbAddr s
  else s

/-! ### The command port (20_memory.md R54) -/

/-- An accepted command word: executed if it decodes, else it ends with IllegalCommand (60_exceptions.md R302, R310). -/
def acceptCommand (w : CmdWord) (s : State) : Result :=
  match decode w with
  | .ok i => exec i s
  | .error _ => raise .illegalCommand s

/-- An edge while a command is in progress or its response waits: the response is raised when the latency ends, held, and taken
at an edge with `rsp_ready = 1` (R54 points 3 and 4). -/
def busyEdge (e : Edge) (s : State) : State :=
  if s.rspPending then
    if e.rspReady then { s with busy := false, rspPending := false } else s
  else if e.latencyEnds then { s with rspPending := true }
  else s

/-- One rising edge of `clk`. A host access comes before a command accepted at the same edge (R55, R56); a host access while
`busy = 1` has no step (R55). `cmd_ready` is 0 at the first edge after reset and 1 from then on (70_reset_and_hazards.md R340;
notes/assumptions/14.md). -/
def clockEdge (e : Edge) (s : State) : Result :=
  if e.rst then .next (resetEdge s)
  else if s.busy then
    if e.hbEn then .refused .hostAccessWhileBusy else .next { busyEdge e s with inReset := false }
  else
    if e.cmdValid && cmdReady s then acceptCommand e.cmdWord { hostAccess e s with inReset := false }
    else .next { hostAccess e s with inReset := false }

/-- The edge at which the host presents a command word and nothing else (R54). -/
def presentCommand (w : CmdWord) : Edge := { cmdValid := true, cmdWord := w }

end Sys2Proof.Machine
end

