-- ==== Sys2Proof/Machine/Step.lean ====
section
/-! DEFINITION. One step: one rising edge of `clk`, with the host's next pin samples. -/

namespace Sys2Proof.Machine

/-- One rising edge of `clk`: the pins are the head of `inputs`, all 0 when none is left (notes/assumptions/11.md). -/
def step (s : State) : Host.Outcome State Fault Refusal :=
  clockEdge (s.inputs.headD {}) { s with inputs := s.inputs.tail }

/-- The state whose next step accepts the command word `w` (its `nbits` bits, the bits above them zero): the host presents it at
the next edge, to a core that is idle and out of reset (notes/assumptions/18.md). -/
def State.withFetchWord (s : State) (nbits w : Nat) : State :=
  { s with
    inputs := presentCommand (BitVec.ofNat 32 (w % 2 ^ nbits)) :: s.inputs
    busy := false
    rspPending := false
    inReset := false }

end Sys2Proof.Machine
end

