-- ==== Sys2Proof/Assembly.lean ====
section
/-! DEFINITION. The assembler's view of the commands: mnemonic and operands (30_encoding.md R81), the names of the type codes
(43_convert.md R200), and the pseudo-instructions (30_encoding.md R82). -/

namespace Sys2Proof

/-- An operand as the assembler writes it (R81): a register `x0` to `x15`, a number, or a type code. -/
inductive AsmOperand where
  | reg (r : Reg)
  | num (v : Int)
  | typeCode (t : Byte)
deriving DecidableEq, Repr

/-- A command as the assembler writes it: the mnemonic, then the operands in the order written (R81). -/
structure AsmLine where
  mnemonic : String
  operands : List AsmOperand
deriving DecidableEq, Repr

/-- How the assembler writes a command (R81): the destination first; BSTLE and BSTBE as value, address, length; FMT as length
destination, address, value, radix. LDI's immediate is unsigned, a shift's is signed (R75). -/
def asmLine : Instr → AsmLine
  | .adc64 rd ra rb rc => ⟨"ADC64", [.reg rd, .reg ra, .reg rb, .reg rc]⟩
  | .sbb64 rd ra rb rc => ⟨"SBB64", [.reg rd, .reg ra, .reg rb, .reg rc]⟩
  | .wmul64 rd ra rb => ⟨"WMUL64", [.reg rd, .reg ra, .reg rb]⟩
  | .mac64 rd ra rb rc => ⟨"MAC64", [.reg rd, .reg ra, .reg rb, .reg rc]⟩
  | .divmod128 rd ra rb => ⟨"DIVMOD128", [.reg rd, .reg ra, .reg rb]⟩
  | .divmod128x64 rd ra rb => ⟨"DIVMOD128X64", [.reg rd, .reg ra, .reg rb]⟩
  | .ldi rd imm16 => ⟨"LDI", [.reg rd, .num imm16.toNat]⟩
  | .limbget rd ra k => ⟨"LIMBGET", [.reg rd, .reg ra, .num k.toNat]⟩
  | .limbset rd ra rb k => ⟨"LIMBSET", [.reg rd, .reg ra, .reg rb, .num k.toNat]⟩
  | .add128 rd ra rb => ⟨"ADD.128", [.reg rd, .reg ra, .reg rb]⟩
  | .sub128 rd ra rb => ⟨"SUB.128", [.reg rd, .reg ra, .reg rb]⟩
  | .mul128 rd ra rb => ⟨"MUL.128", [.reg rd, .reg ra, .reg rb]⟩
  | .div128 rd ra rb => ⟨"DIV.128", [.reg rd, .reg ra, .reg rb]⟩
  | .rem128 rd ra rb => ⟨"REM.128", [.reg rd, .reg ra, .reg rb]⟩
  | .muldiv128 rd ra rb rc => ⟨"MULDIV.128", [.reg rd, .reg ra, .reg rb, .reg rc]⟩
  | .pow128 rd ra rb => ⟨"POW.128", [.reg rd, .reg ra, .reg rb]⟩
  | .sqrt128 rd ra => ⟨"SQRT.128", [.reg rd, .reg ra]⟩
  | .and128 rd ra rb => ⟨"AND.128", [.reg rd, .reg ra, .reg rb]⟩
  | .or128 rd ra rb => ⟨"OR.128", [.reg rd, .reg ra, .reg rb]⟩
  | .xor128 rd ra rb => ⟨"XOR.128", [.reg rd, .reg ra, .reg rb]⟩
  | .not128 rd ra => ⟨"NOT.128", [.reg rd, .reg ra]⟩
  | .shl128 rd ra rb => ⟨"SHL.128", [.reg rd, .reg ra, .reg rb]⟩
  | .shr128 rd ra rb => ⟨"SHR.128", [.reg rd, .reg ra, .reg rb]⟩
  | .shli128 rd ra imm16 => ⟨"SHLI.128", [.reg rd, .reg ra, .num imm16.toInt]⟩
  | .shri128 rd ra imm16 => ⟨"SHRI.128", [.reg rd, .reg ra, .num imm16.toInt]⟩
  | .clz128 rd ra => ⟨"CLZ.128", [.reg rd, .reg ra]⟩
  | .ctz128 rd ra => ⟨"CTZ.128", [.reg rd, .reg ra]⟩
  | .cmpeq128 rd ra rb => ⟨"CMPEQ.128", [.reg rd, .reg ra, .reg rb]⟩
  | .cmplt128 rd ra rb => ⟨"CMPLT.128", [.reg rd, .reg ra, .reg rb]⟩
  | .cmple128 rd ra rb => ⟨"CMPLE.128", [.reg rd, .reg ra, .reg rb]⟩
  | .cmpgt128 rd ra rb => ⟨"CMPGT.128", [.reg rd, .reg ra, .reg rb]⟩
  | .cmpge128 rd ra rb => ⟨"CMPGE.128", [.reg rd, .reg ra, .reg rb]⟩
  | .inc128 rd => ⟨"INC.128", [.reg rd]⟩
  | .dec128 rd => ⟨"DEC.128", [.reg rd]⟩
  | .set128 rd ra => ⟨"SET.128", [.reg rd, .reg ra]⟩
  | .from128 rd ra t => ⟨"FROM.128", [.reg rd, .reg ra, .typeCode t]⟩
  | .to128 rd ra t => ⟨"TO.128", [.reg rd, .reg ra, .typeCode t]⟩
  | .bldle128 rd ra rb => ⟨"BLDLE.128", [.reg rd, .reg ra, .reg rb]⟩
  | .bldbe128 rd ra rb => ⟨"BLDBE.128", [.reg rd, .reg ra, .reg rb]⟩
  | .bstle128 rs ra rb => ⟨"BSTLE.128", [.reg rs, .reg ra, .reg rb]⟩
  | .bstbe128 rs ra rb => ⟨"BSTBE.128", [.reg rs, .reg ra, .reg rb]⟩
  | .parse128 rd ra rb radix => ⟨"PARSE.128", [.reg rd, .reg ra, .reg rb, .num radix.toNat]⟩
  | .fmt128 rd ra rb radix => ⟨"FMT.128", [.reg rd, .reg ra, .reg rb, .num radix.toNat]⟩
  | .add256 rd ra rb => ⟨"ADD.256", [.reg rd, .reg ra, .reg rb]⟩
  | .sub256 rd ra rb => ⟨"SUB.256", [.reg rd, .reg ra, .reg rb]⟩
  | .mul256 rd ra rb => ⟨"MUL.256", [.reg rd, .reg ra, .reg rb]⟩
  | .div256 rd ra rb => ⟨"DIV.256", [.reg rd, .reg ra, .reg rb]⟩
  | .rem256 rd ra rb => ⟨"REM.256", [.reg rd, .reg ra, .reg rb]⟩
  | .pow256 rd ra rb => ⟨"POW.256", [.reg rd, .reg ra, .reg rb]⟩
  | .sqrt256 rd ra => ⟨"SQRT.256", [.reg rd, .reg ra]⟩
  | .and256 rd ra rb => ⟨"AND.256", [.reg rd, .reg ra, .reg rb]⟩
  | .or256 rd ra rb => ⟨"OR.256", [.reg rd, .reg ra, .reg rb]⟩
  | .xor256 rd ra rb => ⟨"XOR.256", [.reg rd, .reg ra, .reg rb]⟩
  | .not256 rd ra => ⟨"NOT.256", [.reg rd, .reg ra]⟩
  | .shl256 rd ra rb => ⟨"SHL.256", [.reg rd, .reg ra, .reg rb]⟩
  | .shr256 rd ra rb => ⟨"SHR.256", [.reg rd, .reg ra, .reg rb]⟩
  | .shli256 rd ra imm16 => ⟨"SHLI.256", [.reg rd, .reg ra, .num imm16.toInt]⟩
  | .shri256 rd ra imm16 => ⟨"SHRI.256", [.reg rd, .reg ra, .num imm16.toInt]⟩
  | .clz256 rd ra => ⟨"CLZ.256", [.reg rd, .reg ra]⟩
  | .ctz256 rd ra => ⟨"CTZ.256", [.reg rd, .reg ra]⟩
  | .cmpeq256 rd ra rb => ⟨"CMPEQ.256", [.reg rd, .reg ra, .reg rb]⟩
  | .cmplt256 rd ra rb => ⟨"CMPLT.256", [.reg rd, .reg ra, .reg rb]⟩
  | .cmple256 rd ra rb => ⟨"CMPLE.256", [.reg rd, .reg ra, .reg rb]⟩
  | .cmpgt256 rd ra rb => ⟨"CMPGT.256", [.reg rd, .reg ra, .reg rb]⟩
  | .cmpge256 rd ra rb => ⟨"CMPGE.256", [.reg rd, .reg ra, .reg rb]⟩
  | .inc256 rd => ⟨"INC.256", [.reg rd]⟩
  | .dec256 rd => ⟨"DEC.256", [.reg rd]⟩
  | .set256 rd ra => ⟨"SET.256", [.reg rd, .reg ra]⟩
  | .from256 rd ra t => ⟨"FROM.256", [.reg rd, .reg ra, .typeCode t]⟩
  | .to256 rd ra t => ⟨"TO.256", [.reg rd, .reg ra, .typeCode t]⟩
  | .bldle256 rd ra rb => ⟨"BLDLE.256", [.reg rd, .reg ra, .reg rb]⟩
  | .bldbe256 rd ra rb => ⟨"BLDBE.256", [.reg rd, .reg ra, .reg rb]⟩
  | .bstle256 rs ra rb => ⟨"BSTLE.256", [.reg rs, .reg ra, .reg rb]⟩
  | .bstbe256 rs ra rb => ⟨"BSTBE.256", [.reg rs, .reg ra, .reg rb]⟩
  | .parse256 rd ra rb radix => ⟨"PARSE.256", [.reg rd, .reg ra, .reg rb, .num radix.toNat]⟩
  | .fmt256 rd ra rb radix => ⟨"FMT.256", [.reg rd, .reg ra, .reg rb, .num radix.toNat]⟩

/-- The assembler aliases of the constant registers (10_state.md R21; R81). -/
def regAlias? (r : Reg) : Option String :=
  match r.val with
  | 0 => some "zero"
  | 1 => some "one"
  | 2 => some "max"
  | _ => none

/-- The type name the assembler accepts for a type code; codes 12 to 255 are written as numbers (R81; 43_convert.md R200). -/
def typeName? (t : Byte) : Option String :=
  ["bool", "u8", "u16", "u32", "u64", "i8", "i16", "i32", "i64", "f32", "f64", "other"][t.toNat]?

/-- The pseudo-instructions of R82. -/
inductive Pseudo where
  | mov128 (xd xa : Reg)
  | mov256 (xd xa : Reg)
  | clr (xd : Reg)
  | ldmax128 (xd : Reg)
  | ldmax256 (xd : Reg)
  | neg128 (xd xa : Reg)
  | neg256 (xd xa : Reg)
  | getcarry (xd xa : Reg)
  | getrem (xd xa : Reg)
  | getquo (xd xa : Reg)
deriving DecidableEq, Repr

/-- The command a pseudo-instruction expands to (R82). -/
def Pseudo.expand : Pseudo → Instr
  | .mov128 xd xa => .set128 xd xa
  | .mov256 xd xa => .set256 xd xa
  | .clr xd => .set256 xd 0
  | .ldmax128 xd => .set128 xd 2
  | .ldmax256 xd => .set256 xd 2
  | .neg128 xd xa => .sub128 xd 0 xa
  | .neg256 xd xa => .sub256 xd 0 xa
  | .getcarry xd xa => .limbget xd xa 1
  | .getrem xd xa => .shri256 xd xa 128
  | .getquo xd xa => .set128 xd xa

end Sys2Proof
end

