-- ==== Sys2Proof/Safety.lean ====
section
/-! DEFINITION. The terms the statements are written in: the invariant, how a command ends, which errors hold, and the spec's
own numbers (as Nat and Int, beside the machine's bit vectors). -/

namespace Sys2Proof.Machine

/-! ### The invariant -/

/-- What every state a run reaches satisfies: BUF is in canonical form, a response waits only while the core is busy
(20_memory.md R54), and the core is idle in reset (70_reset_and_hazards.md R340). -/
structure State.Inv (s : State) : Prop where
  bufWf : s.buf.wf
  pendingBusy : s.rspPending = true → s.busy = true
  resetIdle : s.inReset = true → s.busy = false

/-! ### How a command ends -/

/-- The command ends with an error and changes nothing but the interface state (60_exceptions.md R311). -/
def EndsWith (o : Result) (e : ErrorKind) (s : State) : Prop := o = .next (respond (.error e) s)

/-- The command ends with status OK and its one effect is `x[rd] <- v`. -/
def Writes (o : Result) (rd : Reg) (v : Nat) (s : State) : Prop :=
  o = .next (respond .ok (writeReg s rd (BitVec.ofNat 256 v)))

/-- A word of format R as the sum 30_encoding.md R83 gives. -/
def cmdR (op : Nat) (rd ra rb rc : Reg) (aux : Nat) : CmdWord :=
  BitVec.ofNat 32 (op * 2 ^ 24 + rd.val * 2 ^ 20 + ra.val * 2 ^ 16 + rb.val * 2 ^ 12 + rc.val * 2 ^ 8 + aux)

/-- A word of format I as the sum 30_encoding.md R83 gives. -/
def cmdI (op : Nat) (rd ra : Reg) (imm16 : BitVec 16) : CmdWord :=
  BitVec.ofNat 32 (op * 2 ^ 24 + rd.val * 2 ^ 20 + ra.val * 2 ^ 16 + imm16.toNat)

/-- `w` is the one word that decodes to `i`: every other word is another command or illegal (30_encoding.md R78, R79). -/
def HasEncoding (i : Instr) (w : CmdWord) : Prop := ∀ w', decode w' = .ok i ↔ w' = w

/-- The rule of a command with no execution error: its encoding; ImmutableConstantViolation for rd in 0, 1, 2; else
`x[rd] <- v(s)`. -/
def RegRule (i : Instr) (w : CmdWord) (rd : Reg) (v : State → Nat) : Prop :=
  HasEncoding i w ∧ ∀ s,
    (rd.val < 3 → EndsWith (exec i s) .immutableConstantViolation s) ∧
    (3 ≤ rd.val → Writes (exec i s) rd (v s) s)

/-- As `RegRule`, for a command that raises `e` exactly where `fails` holds, the destination check coming first. -/
def RegRuleErr (i : Instr) (w : CmdWord) (rd : Reg) (e : ErrorKind) (fails : State → Prop) (v : State → Nat) : Prop :=
  HasEncoding i w ∧ ∀ s,
    (rd.val < 3 → EndsWith (exec i s) .immutableConstantViolation s) ∧
    (3 ≤ rd.val → fails s → EndsWith (exec i s) e s) ∧
    (3 ≤ rd.val → ¬ fails s → Writes (exec i s) rd (v s) s)

/-- As `RegRule`, where the rule says by a property what the value is. -/
def RegRuleProp (i : Instr) (w : CmdWord) (rd : Reg) (p : State → Nat → Prop) : Prop :=
  HasEncoding i w ∧ ∀ s,
    (rd.val < 3 → EndsWith (exec i s) .immutableConstantViolation s) ∧
    (3 ≤ rd.val → ∃ v, p s v ∧ Writes (exec i s) rd v s)

/-! ### The spec's numbers (00_scope.md R8, R9) -/

/-- `x[r]` as a number. -/
def val (s : State) (r : Reg) : Nat := (readReg s r).toNat

/-- `x[r][w-1:0]` as a number. -/
def low (w : Nat) (s : State) (r : Reg) : Nat := val s r % 2 ^ w

/-- `sint_w(v)` (R8). -/
def sintOf (w v : Nat) : Int := if v < 2 ^ (w - 1) then v else (v : Int) - 2 ^ w

/-- `t mod 2^w` of a signed number (R8). -/
def wrapInt (w : Nat) (t : Int) : Nat := (t % 2 ^ w).toNat

/-- Limb `k` of a number (R7). -/
def limbVal (v k : Nat) : Nat := v / 2 ^ (64 * k) % 2 ^ 64

/-- `shl_N(A, s)` (42_bitwise_shift_compare.md R169). -/
def shlNat (n a : Nat) (amount : Int) : Nat :=
  if amount < 0 then 0 else if amount = 0 then a
  else if amount ≤ n - 1 then a * 2 ^ amount.toNat % 2 ^ n else 0

/-- `shr_N(A, s)` (42_bitwise_shift_compare.md R169). -/
def shrNat (n a : Nat) (amount : Int) : Nat :=
  if amount < 0 then 0 else if amount = 0 then a
  else if amount ≤ n - 1 then a / 2 ^ amount.toNat else 0

/-- The power of 41_arith.md R132. -/
def powNat (n a : Nat) (e : Int) : Nat :=
  if e < 0 then 0 else if e = 0 then 1 else a ^ e.toNat % 2 ^ n

/-- The unsigned value of a finite pattern with a clear sign bit, from 43_convert.md R202. -/
def floatMagnitude (fmt : FloatFormat) (bits : Nat) : ℚ :=
  match fmt with
  | .binary64 =>
    let e : Nat := bits / 2 ^ 52 % 2 ^ 11
    let f : Nat := bits % 2 ^ 52
    if e = 0 then (f : ℚ) * (2 : ℚ) ^ (-1074 : ℤ) else ((2 : ℚ) ^ 52 + f) * (2 : ℚ) ^ ((e : ℤ) - 1075)
  | .binary32 =>
    let e : Nat := bits / 2 ^ 23 % 2 ^ 8
    let f : Nat := bits % 2 ^ 23
    if e = 0 then (f : ℚ) * (2 : ℚ) ^ (-149 : ℤ) else ((2 : ℚ) ^ 23 + f) * (2 : ℚ) ^ ((e : ℤ) - 150)

/-- The non-negative finite patterns of a format: below the pattern of +infinity (43_convert.md R202). -/
def finitePatterns : FloatFormat → Nat
  | .binary64 => 0x7FF0000000000000
  | .binary32 => 0x7F800000

/-- `b` is the non-negative finite pattern nearest to `v`, the even one of two that are equally near: round to nearest even
(43_convert.md R203, R204). -/
def RoundsToNearestEven (fmt : FloatFormat) (v : ℚ) (b : Nat) : Prop :=
  b < finitePatterns fmt ∧
  ∀ b' < finitePatterns fmt, b' ≠ b →
    |floatMagnitude fmt b - v| < |floatMagnitude fmt b' - v| ∨
    (|floatMagnitude fmt b - v| = |floatMagnitude fmt b' - v| ∧ b % 2 = 0)

/-! ### Which errors hold (60_exceptions.md R302 to R308) -/

/-- The type code operand of FROM and TO. -/
def typeCode? : Instr → Option Byte
  | .from128 _ _ t | .from256 _ _ t | .to128 _ _ t | .to256 _ _ t => some t
  | _ => none

/-- The radix operand of PARSE and FMT. -/
def radix? : Instr → Option Byte
  | .parse128 _ _ _ radix | .parse256 _ _ _ radix | .fmt128 _ _ _ radix | .fmt256 _ _ _ radix => some radix
  | _ => none

/-- The length register of BLD and BST and the one length they accept (R306). -/
def exactLength? : Instr → Option (Reg × Nat)
  | .bldle128 _ _ rb | .bldbe128 _ _ rb | .bstle128 _ _ rb | .bstbe128 _ _ rb => some (rb, 16)
  | .bldle256 _ _ rb | .bldbe256 _ _ rb | .bstle256 _ _ rb | .bstbe256 _ _ rb => some (rb, 32)
  | _ => none

/-- Address register, length register and radix of PARSE. -/
def parsed? : Instr → Option (Reg × Reg × Byte)
  | .parse128 _ ra rb radix | .parse256 _ ra rb radix => some (ra, rb, radix)
  | _ => none

/-- The divisor of a dividing command (R307). -/
def divisor? : Instr → State → Option Nat
  | .div128 _ _ rb, s | .rem128 _ _ rb, s | .divmod128 _ _ rb, s => some (low 128 s rb)
  | .div256 _ _ rb, s | .rem256 _ _ rb, s => some (val s rb)
  | .muldiv128 _ _ _ rc, s => some (low 128 s rc)
  | .divmod128x64 _ _ rb, s => some (low 64 s rb)
  | _, _ => none

/-- The cause of each error kind (R302 to R308), each for itself, whatever else holds. -/
def ErrorHolds (i : Instr) (s : State) : ErrorKind → Prop
  | .illegalCommand => i.wellFormed = false
  | .immutableConstantViolation => ∃ rd, i.dest? = some rd ∧ rd.val < 3
  | .unsupportedType => ∃ t, typeCode? i = some t ∧ 12 ≤ t.toNat
  | .invalidRadix => ∃ r, radix? i = some r ∧ r.toNat ≠ 10 ∧ r.toNat ≠ 16
  | .invalidLength =>
    (∃ r n, exactLength? i = some (r, n) ∧ val s r ≠ n) ∨ (∃ ra rb r, parsed? i = some (ra, rb, r) ∧ 256 < val s rb)
  | .divideByZero => divisor? i s = some 0
  | .invalidCharacter =>
    ∃ ra rb r, parsed? i = some (ra, rb, r) ∧
      ∃ j < val s rb, ∃ b, s.buf.read ((val s ra % 256 + j) % 256) = some b ∧ digitValue? r.toNat b = none

/-- The BUF addresses a command reads: start and number of bytes (20_memory.md R43). -/
def bytesRead : Instr → State → Nat × Nat
  | .bldle128 _ ra _, s | .bldbe128 _ ra _, s => (val s ra % 256, 16)
  | .bldle256 _ ra _, s | .bldbe256 _ ra _, s => (val s ra % 256, 32)
  | .parse128 _ ra rb _, s | .parse256 _ ra rb _, s => (val s ra % 256, val s rb)
  | _, _ => (0, 0)

/-- Every BUF byte the command reads has been written since reset (70_reset_and_hazards.md R343). -/
def BytesWritten (i : Instr) (s : State) : Prop :=
  ∀ j < (bytesRead i s).2, s.buf.read (((bytesRead i s).1 + j) % 256) ≠ none

/-- The BUF addresses a storing command writes: start and number of bytes (20_memory.md R43). -/
def bytesStored : Instr → State → Nat × Nat
  | .bstle128 _ ra _, s | .bstbe128 _ ra _, s => (bufAddr s ra, 16)
  | .bstle256 _ ra _, s | .bstbe256 _ ra _, s => (bufAddr s ra, 32)
  | .fmt128 _ ra rb radix, s => (bufAddr s ra, (formatDigits 128 radix.toNat (view 128 s rb).toNat).length)
  | .fmt256 _ ra rb radix, s => (bufAddr s ra, (formatDigits 256 radix.toNat (view 256 s rb).toNat).length)
  | _, _ => (0, 0)

end Sys2Proof.Machine
end

