-- ==== Sys2Proof/Certificates/Slice0/Obligations.lean ====
section
/-! DEFINITION. The statements about the machine. `val s r` is x[r] as a number, `low w s r` is x[r][w-1:0]; the other words are
those of Safety.lean. -/

open Sys2Proof Sys2Proof.Machine

/-! ### Encoding and decoding (30_encoding.md) -/

/-- Decoding the word of a well-formed command gives the command back, with every operand (R77, R80). -/
def Obligations.DecodeOfEncodeGivesTheCommand : Prop :=
  ∀ i : Instr, i.wellFormed = true → decode (encode i) = .ok i

/-- A word that decodes is the word of a well-formed command: no bit of it is dropped (R78, R79). -/
def Obligations.EncodeOfDecodeGivesTheWord : Prop :=
  ∀ (w : CmdWord) (i : Instr), decode w = .ok i → i.wellFormed = true ∧ encode i = w

/-- The reserved opcodes are those R79 lists; a command with one ends with IllegalCommand and changes nothing; every other word
is a row of the map with its unused fields 0, or illegal. -/
def Obligations.ReservedOpcodesEndWithIllegalCommand : Prop :=
  ∀ (w : CmdWord) (s : State),
    let op := (opOf w).toNat
    (decode w = .error .reservedOpcode ↔
      op = 0 ∨ (0x0A ≤ op ∧ op ≤ 0x3F) ∨ (0x62 ≤ op ∧ op ≤ 0x7F) ∨ op = 0x85 ∨ (0xA2 ≤ op ∧ op ≤ 0xBF) ∨ 0xC0 ≤ op) ∧
    (decode w = .error .reservedOpcode → EndsWith (acceptCommand w s) .illegalCommand s) ∧
    ((∃ i, decode w = .ok i) ↔ ∃ row ∈ opcodeTable, row.opcode = opOf w ∧ w &&& row.mask = row.pattern)

/-- A word whose opcode has a row and which differs from the row's match under its mask is illegal (R78). -/
def Obligations.NonzeroReservedFieldEndsWithIllegalCommand : Prop :=
  ∀ (w : CmdWord) (s : State), ∀ row ∈ opcodeTable, row.opcode = opOf w →
    (w &&& row.mask ≠ row.pattern ↔ decode w = .error .reservedFieldNonzero) ∧
    (w &&& row.mask ≠ row.pattern → EndsWith (acceptCommand w s) .illegalCommand s)

/-- The words R83 gives decode to the commands it gives them for, and its two illegal words are refused. -/
def Obligations.ExampleWordsDecode : Prop :=
  decode 0x80321000 = .ok (.add256 3 2 1) ∧ decode 0x07300064 = .ok (.ldi 3 100) ∧
  decode 0x8E43FFFF = .ok (.shli256 4 3 (-1)) ∧ decode 0x09403001 = .ok (.limbset 4 0 3 1) ∧
  decode 0x5A560008 = .ok (.from128 5 6 8) ∧ decode 0x60534010 = .ok (.parse128 5 3 4 16) ∧
  decode 0x01621000 = .ok (.adc64 6 2 1 0) ∧
  decode 0x00000000 = .error .reservedOpcode ∧ decode 0x80321001 = .error .reservedFieldNonzero

/-- The opcode map has 76 rows with 76 opcodes, each row's match being its opcode with every other bit 0; bits 31:30 of a word
split it into groups, and the operation k at 256 bits has the opcode of k at 128 bits plus 0x40 (R76, R77). -/
def Obligations.OpcodeMapShape : Prop :=
  opcodeTable.length = 76 ∧ (opcodeTable.map (·.opcode)).Nodup ∧
  (∀ row ∈ opcodeTable, row.pattern = cmdR row.opcode.toNat 0 0 0 0 0 ∧
    ((0x01 ≤ row.opcode.toNat ∧ row.opcode.toNat ≤ 0x09) ∨ (0x40 ≤ row.opcode.toNat ∧ row.opcode.toNat < 0x80) ∨
      (0x80 ≤ row.opcode.toNat ∧ row.opcode.toNat < 0xC0))) ∧
  (∀ r ∈ opcodeTable, ∀ q ∈ opcodeTable, 0x40 ≤ r.opcode.toNat → r.opcode.toNat < 0x80 →
    q.opcode.toNat = r.opcode.toNat + 0x40 →
      r.mnemonic.toList.take (r.mnemonic.length - 4) = q.mnemonic.toList.take (q.mnemonic.length - 4) ∧
      r.mnemonic.toList.drop (r.mnemonic.length - 4) = ['.', '1', '2', '8'] ∧
      q.mnemonic.toList.drop (q.mnemonic.length - 4) = ['.', '2', '5', '6'] ∧ r.mask = q.mask)

/-! ### The step, the command port, the host BUF port, reset (20_memory.md, 70_reset_and_hazards.md) -/

/-- A step whose edge presents a command word to a ready core, with no reset and no host access, runs exactly the decoded
command, on the state whose pending inputs lack that edge; a word that decodes to none ends with IllegalCommand. -/
def Obligations.StepRunsTheDecodedCommand : Prop :=
  ∀ (s : State) (e : Edge) (rest : List Edge), s.inputs = e :: rest → cmdReady s = true →
    e.rst = false → e.hbEn = false → e.cmdValid = true →
    (∀ i, decode e.cmdWord = .ok i → step s = exec i { s with inputs := rest }) ∧
    (∀ err, decode e.cmdWord = .error err → EndsWith (step s) .illegalCommand { s with inputs := rest })

/-- The command handshake of R54: (1) a command is accepted only at an edge where the core is ready, which then is busy with no
response yet and not ready; (2) while busy no command is accepted; (3) the response is raised after the accepting edge, and
raising it changes nothing else; (4) it holds until an edge with `rsp_ready = 1`, which ends busy. When CMD_LATENCY ends is an
input of the model's edge (notes/assumptions/10.md); that the status stands unchanged also while `rsp_valid = 0` is the model's
choice (7). -/
def Obligations.CommandHandshake : Prop :=
  (∀ (s t : State) (e : Edge), e.rst = false → e.cmdValid = true → cmdReady s = true → clockEdge e s = .next t →
    t.busy = true ∧ rspValid t = false ∧ cmdReady t = false) ∧
  (∀ (s : State) (e : Edge), e.rst = false → e.hbEn = false → s.busy = true → s.inReset = false →
    clockEdge e s = .next (if s.rspPending then (if e.rspReady then { s with busy := false, rspPending := false } else s)
      else if e.latencyEnds then { s with rspPending := true } else s)) ∧
  (∀ (s t : State) (e : Edge), e.rst = false → s.busy = true → s.inReset = false → rspValid s = true → e.rspReady = true →
    clockEdge e s = .next t → cmdReady t = true ∧ rspValid t = false ∧ t.gpr = s.gpr ∧ t.buf = s.buf)

/-- The edges at which no command runs (R55, R50, R22): with `busy = 1` a host access has no step. With `busy = 0` and no command
accepted (none presented, or the core not ready) registers and interface stay idle and the core is ready from then on; a host
write changes the addressed byte and no other; a host read changes no byte, answers the byte, and gives the same again when
repeated, also for a byte that nothing has written; without a host access BUF and `hb_rdata` stay. That an edge of a core still
in reset accepts no command is the model's reading (notes/assumptions/14.md), that the status stays while `rsp_valid = 0` its
choice (7). -/
def Obligations.HostBufPortReadsAndWrites : Prop :=
  (∀ (s : State) (e : Edge), e.rst = false → s.busy = true → e.hbEn = true →
    clockEdge e s = .refused .hostAccessWhileBusy) ∧
  ∀ (s : State) (e : Edge), e.rst = false → s.busy = false → e.cmdValid = false ∨ cmdReady s = false →
    ∃ t, clockEdge e s = .next t ∧ t.gpr = s.gpr ∧ t.busy = false ∧ cmdReady t = true ∧ t.rspPending = s.rspPending ∧
      t.rspStatus = s.rspStatus ∧ t.inputs = s.inputs ∧ t.resetCount = s.resetCount ∧
      (e.hbEn = true → e.hbWe = true →
        ∀ a, t.buf.read a = if a = e.hbAddr.toNat then some e.hbWdata else s.buf.read a) ∧
      (e.hbEn = true → e.hbWe = false →
        t.buf = s.buf ∧ t.freeCount = s.freeCount ∧ (∀ b, s.buf.read e.hbAddr.toNat = some b → t.hbRdata = b) ∧
        ∀ u, clockEdge e t = .next u → u.hbRdata = t.hbRdata) ∧
      (e.hbEn = false → t.buf = s.buf ∧ t.freeCount = s.freeCount ∧ t.hbRdata = s.hbRdata)

/-- A host access at the edge that accepts a command comes before the command: the same as the access at one edge and the
command at the next (R55, R56). -/
def Obligations.HostAccessComesBeforeTheCommand : Prop :=
  ∀ (s u : State) (e : Edge), e.rst = false → cmdReady s = true → e.hbEn = true → e.cmdValid = true →
    clockEdge { e with cmdValid := false } s = .next u → clockEdge e s = clockEdge { e with hbEn := false } u

/-- A rising edge with `rst = 1` (R340): interface idle, `rsp_valid = 0`, `cmd_ready = 0`, whatever the other pins are; the first
edge with `rst = 0` then makes `cmd_ready` 1 and accepts no command (that it accepts none is the model's reading of R340,
notes/assumptions/14.md; that the status stays at that edge is its choice, 7). -/
def Obligations.ResetEdgeIdlesTheInterface : Prop :=
  ∀ (s : State) (e : Edge), e.rst = true →
    ∃ t, clockEdge e s = .next t ∧ t.busy = false ∧ t.rspPending = false ∧ rspValid t = false ∧ cmdReady t = false ∧
      (∀ e' : Edge, clockEdge { e' with rst := true } s = .next t) ∧
      (∀ e' : Edge, e'.rst = false →
        ∃ u, clockEdge e' t = .next u ∧ cmdReady u = true ∧ u.busy = false ∧ u.rspStatus = t.rspStatus ∧ u.gpr = t.gpr)

/-- After a reset edge x0 to x2 still read as their constants, BUF has no byte with a value, and the general registers hold free
values of this reset, which the edge counts (R33, R34, R342; that a general register holds a free value is the model's,
notes/assumptions/8.md). -/
def Obligations.ResetLeavesRegistersAndBufUnspecified : Prop :=
  ∀ (s t : State) (e : Edge), e.rst = true → clockEdge e s = .next t →
    readReg t 0 = 0 ∧ readReg t 1 = 1 ∧ readReg t 2 = BitVec.allOnes 256 ∧
    (∀ a, t.buf.read a = none) ∧ t.resetCount = s.resetCount + 1 ∧
    ∀ r : Reg, 3 ≤ r.val → readReg t r = Config.freeWord t.resetCount r.val

/-! ### The invariant -/

/-- The state after reset satisfies the invariant. -/
def Obligations.ResetStateSatisfiesTheInvariant : Prop := State.reset.Inv

/-- Every step from a state that satisfies the invariant ends in one that does: BUF stays in canonical form, a response waits
only while the core is busy, the core is idle in reset. -/
def Obligations.EveryStepKeepsTheInvariant : Prop :=
  ∀ s t : State, s.Inv → step s = .next t → t.Inv

/-- The reset values R33 gives: the constants, an idle interface, `cmd_ready = 1`, no BUF byte with a value (an unspecified byte
as one with no value is the model's, notes/assumptions/2.md). Nothing is said of x3 to x15, whose 0 is the model's choice (1). -/
def Obligations.ResetStateIsIdle : Prop :=
  readReg State.reset 0 = 0 ∧ readReg State.reset 1 = 1 ∧ readReg State.reset 2 = BitVec.allOnes 256 ∧
  State.reset.busy = false ∧ State.reset.rspPending = false ∧ cmdReady State.reset = true ∧
  ∀ a, State.reset.buf.read a = none

/-! ### Registers, statuses, errors (10_state.md, 60_exceptions.md) -/

/-- x0, x1 and x2 read as Zero, One and Max in every state, their 128-bit views too; a command that would write one writes
nothing and ends with ImmutableConstantViolation (R21, R303). Every command but BSTLE and BSTBE writes a register. -/
def Obligations.ConstantRegistersCannotChange : Prop :=
  (∀ s : State, val s 0 = 0 ∧ val s 1 = 1 ∧ val s 2 = 2 ^ 256 - 1 ∧
    low 128 s 0 = 0 ∧ low 128 s 1 = 1 ∧ low 128 s 2 = 2 ^ 128 - 1) ∧
  (∀ (i : Instr) (s : State) (rd : Reg), i.wellFormed = true → i.dest? = some rd → rd.val < 3 →
    EndsWith (exec i s) .immutableConstantViolation s) ∧
  (∀ i : Instr, i.dest? = none ↔ ∃ rs ra rb, i ∈ [.bstle128 rs ra rb, .bstbe128 rs ra rb, .bstle256 rs ra rb, .bstbe256 rs ra rb])

/-- A command writes at most its destination register and leaves every other register as it was (R36, R22). -/
def Obligations.OnlyTheDestinationRegisterChanges : Prop :=
  ∀ (i : Instr) (s t : State) (r : Reg), exec i s = .next t → i.dest? ≠ some r → readReg t r = readReg s r

/-- Commands other than BSTLE, BSTBE and FMT leave every BUF byte as it was (R43). -/
def Obligations.OnlyStoringCommandsChangeBuf : Prop :=
  ∀ (i : Instr) (s t : State), exec i s = .next t → i.storesBuf = false → ∀ a, t.buf.read a = s.buf.read a

/-- BSTLE, BSTBE and FMT leave every BUF byte outside the bytes they store as it was (R43, R42). The stored bytes start at the
address the command's own address operand gives. -/
def Obligations.StoringCommandsChangeOnlyTheirBytes : Prop :=
  ∀ (i : Instr) (s t : State) (addr n : Nat), exec i s = .next t → i.storesBuf = true → bytesStored i s = (addr, n) →
    ∀ a, (∀ j < n, a ≠ wrapAddr addr j) → t.buf.read a = s.buf.read a

/-- A command changes, beside its destination and the bytes it stores, nothing but `busy`, the response waiting and the status:
the host port's output, the reset state, the inputs and the counts the free values are taken by stay (R28, R32, R311). -/
def Obligations.CommandsLeaveTheOtherStateAlone : Prop :=
  ∀ (i : Instr) (s t : State), exec i s = .next t →
    t.busy = true ∧ t.rspPending = false ∧ t.hbRdata = s.hbRdata ∧ t.inReset = s.inReset ∧ t.inputs = s.inputs ∧
    t.freeCount = s.freeCount ∧ t.resetCount = s.resetCount

/-- A command that ends with a status other than OK leaves the state as it was, but for the interface state and the response
(R311): said of the decoded command and of the accepted word, which may decode to none. -/
def Obligations.ErrorsChangeNothing : Prop :=
  (∀ (i : Instr) (s t : State), exec i s = .next t → t.rspStatus ≠ .ok →
    t = { s with busy := true, rspPending := false, rspStatus := t.rspStatus }) ∧
  (∀ (w : CmdWord) (s t : State), acceptCommand w s = .next t → t.rspStatus ≠ .ok →
    t = { s with busy := true, rspPending := false, rspStatus := t.rspStatus })

/-- The status codes of R300; 8 to 15 are never produced (R323). What the `rsp_status` port shows while `rsp_valid = 0` is the
model's choice (notes/assumptions/7.md). -/
def Obligations.StatusCodes : Prop :=
  statusCode .ok = 0 ∧ statusCode (.error .divideByZero) = 1 ∧ statusCode (.error .invalidLength) = 2 ∧
  statusCode (.error .invalidRadix) = 3 ∧ statusCode (.error .invalidCharacter) = 4 ∧
  statusCode (.error .unsupportedType) = 5 ∧ statusCode (.error .immutableConstantViolation) = 6 ∧
  statusCode (.error .illegalCommand) = 7 ∧ (∀ st : Status, (statusCode st).toNat < 8) ∧
  ∀ s : State, (rspStatusPort s).toNat < 8

/-- Which status a command ends with (R303 to R309): where every BUF byte it reads has been written, it ends with an error whose
cause holds and no cause of higher priority does, and with OK where no cause holds. That the term of LIMBGET or LIMBSET with an
index that has no word ends with IllegalCommand is the model's reading of R78 and R302 (notes/assumptions/17.md). -/
def Obligations.ErrorsFollowThePriorityOrder : Prop :=
  ∀ (i : Instr) (s : State),
    (∀ e, e ≠ .invalidCharacter → ErrorHolds i s e → (∀ e', ErrorHolds i s e' → errorPriority e ≤ errorPriority e') →
      EndsWith (exec i s) e s) ∧
    (BytesWritten i s → ErrorHolds i s .invalidCharacter → (∀ e, ErrorHolds i s e → e = .invalidCharacter) →
      EndsWith (exec i s) .invalidCharacter s) ∧
    (BytesWritten i s → (∀ e, ¬ ErrorHolds i s e) → ∃ t, exec i s = .next t ∧ t.rspStatus = .ok)

/-- In this model a command stops only by reading a BUF byte that nothing has written since reset: it is BLDLE, BLDBE or PARSE,
no other error holds that comes before the read, and one of the bytes it reads has no value (R34). Nothing refuses a command.
That nothing else stops one is the model's choice: R34 and U1 ask a model to fault on a general register never written too, and
here such a register holds a value (notes/assumptions/1.md, and 8.md after an `rst` edge). That PARSE stops whatever its other
bytes are is the model's too (notes/assumptions/19.md). -/
def Obligations.OnlyUnwrittenBytesStopACommand : Prop :=
  ∀ (i : Instr) (s : State),
    (∀ f, exec i s = .fault f → i.loadsBuf = true ∧ ¬ BytesWritten i s ∧
      (∀ e, e ≠ .invalidCharacter → ¬ ErrorHolds i s e) ∧
      ∃ a, f = .bufByteNeverWritten a ∧ s.buf.read a = none) ∧
    (∀ r, exec i s ≠ .refused r) ∧
    (i.loadsBuf = true → ¬ BytesWritten i s → (∀ e, e ≠ .invalidCharacter → ¬ ErrorHolds i s e) →
      ∃ a, exec i s = .fault (.bufByteNeverWritten a))

/-- The result of a command depends only on the registers it names as sources and, for the commands that read BUF, on BUF (R32):
two states that agree on those give the same status, the same value in the destination, and the same bytes stored. -/
def Obligations.ResultDependsOnlyOnTheOperands : Prop :=
  ∀ (i : Instr) (s s' t t' : State), (∀ r ∈ i.sources, readReg s r = readReg s' r) → (i.loadsBuf = true → s.buf = s'.buf) →
    exec i s = .next t → exec i s' = .next t' →
      t.rspStatus = t'.rspStatus ∧
      (t.rspStatus = .ok → ∀ rd, i.dest? = some rd → readReg t rd = readReg t' rd) ∧
      ∀ a, t.buf.read a = t'.buf.read a ∨ (t.buf.read a = s.buf.read a ∧ t'.buf.read a = s'.buf.read a)

/-- After any command of the 128-bit type that ends with OK, limbs 2 and 3 of the destination are 0 (R25). -/
def Obligations.Results128LeaveTheHighLimbsZero : Prop :=
  ∀ (i : Instr) (s t : State) (rd : Reg), (opOf (encode i)).toNat / 0x40 = 1 → exec i s = .next t → t.rspStatus = .ok →
    i.dest? = some rd → limbVal (val t rd) 2 = 0 ∧ limbVal (val t rd) 3 = 0 ∧ val t rd < 2 ^ 128

/-! ### Limb primitives and constructors (40_limb.md) -/

/-- ADC64 and SBB64: sum and carry, difference and borrow, packed in the destination (R101, R102). -/
def Obligations.Adc64AndSbb64 : Prop :=
  ∀ rd ra rb rc : Reg,
    RegRule (.adc64 rd ra rb rc) (cmdR 0x01 rd ra rb rc 0) rd
      (fun s => low 64 s ra + low 64 s rb + low 1 s rc) ∧
    RegRule (.sbb64 rd ra rb rc) (cmdR 0x02 rd ra rb rc 0) rd
      (fun s =>
        let t : Int := (low 64 s ra : Int) - low 64 s rb - low 1 s rc
        (if t < 0 then 1 else 0) * 2 ^ 64 + wrapInt 64 t)

/-- WMUL64 and MAC64: the exact 128-bit product, and the accumulator in x[rd] plus product plus carry word, which fits 128 bits
(R103, R104). R104's fault of a model for an x[rd] never written is not said: this model's registers always hold a value
(notes/assumptions/1.md). -/
def Obligations.Wmul64AndMac64 : Prop :=
  ∀ rd ra rb rc : Reg,
    RegRule (.wmul64 rd ra rb) (cmdR 0x03 rd ra rb 0 0) rd (fun s => low 64 s ra * low 64 s rb) ∧
    RegRule (.mac64 rd ra rb rc) (cmdR 0x04 rd ra rb rc 0) rd
      (fun s => low 64 s rd + low 64 s ra * low 64 s rb + low 64 s rc) ∧
    ∀ s : State, low 64 s rd + low 64 s ra * low 64 s rb + low 64 s rc < 2 ^ 128

/-- DIVMOD128 and DIVMOD128X64: quotient in bits 127:0, remainder in bits 255:128; a zero divisor raises DivideByZero (R105,
R106). -/
def Obligations.Divmod128AndDivmod128x64 : Prop :=
  ∀ rd ra rb : Reg,
    RegRuleErr (.divmod128 rd ra rb) (cmdR 0x05 rd ra rb 0 0) rd .divideByZero (fun s => low 128 s rb = 0)
      (fun s => low 128 s ra % low 128 s rb * 2 ^ 128 + low 128 s ra / low 128 s rb) ∧
    RegRuleErr (.divmod128x64 rd ra rb) (cmdR 0x06 rd ra rb 0 0) rd .divideByZero (fun s => low 64 s rb = 0)
      (fun s => low 128 s ra % low 64 s rb * 2 ^ 128 + low 128 s ra / low 64 s rb)

/-- LDI, LIMBGET and LIMBSET (R107, R108, R109). -/
def Obligations.LdiLimbgetAndLimbset : Prop :=
  (∀ (rd : Reg) (imm16 : BitVec 16), RegRule (.ldi rd imm16) (cmdI 0x07 rd 0 imm16) rd (fun _ => imm16.toNat)) ∧
  (∀ (rd ra rb : Reg) (k : Byte), k.toNat < 4 →
    RegRule (.limbget rd ra k) (cmdR 0x08 rd ra 0 0 k.toNat) rd (fun s => limbVal (val s ra) k.toNat) ∧
    RegRuleProp (.limbset rd ra rb k) (cmdR 0x09 rd ra rb 0 k.toNat) rd
      (fun s v => v < 2 ^ 256 ∧ limbVal v k.toNat = low 64 s rb ∧
        ∀ j < 4, j ≠ k.toNat → limbVal v j = limbVal (val s ra) j))

/-! ### Wrapping arithmetic (41_arith.md) -/

/-- ADD and SUB wrap modulo 2^N; the 256-bit forms are the carry and borrow chains across the four limbs (R121 to R124). -/
def Obligations.AddAndSubWrap : Prop :=
  ∀ rd ra rb : Reg,
    RegRule (.add128 rd ra rb) (cmdR 0x40 rd ra rb 0 0) rd (fun s => (low 128 s ra + low 128 s rb) % 2 ^ 128) ∧
    RegRule (.add256 rd ra rb) (cmdR 0x80 rd ra rb 0 0) rd (fun s => (val s ra + val s rb) % 2 ^ 256) ∧
    RegRule (.sub128 rd ra rb) (cmdR 0x41 rd ra rb 0 0) rd
      (fun s => wrapInt 128 ((low 128 s ra : Int) - low 128 s rb)) ∧
    RegRule (.sub256 rd ra rb) (cmdR 0x81 rd ra rb 0 0) rd (fun s => wrapInt 256 ((val s ra : Int) - val s rb)) ∧
    (∀ s : State, ∃ c : Nat → Nat, c 0 = 0 ∧ ∀ k < 4,
      let t := limbVal (val s ra) k + limbVal (val s rb) k + c k
      c (k + 1) = (if 2 ^ 64 ≤ t then 1 else 0) ∧ limbVal ((val s ra + val s rb) % 2 ^ 256) k = t % 2 ^ 64) ∧
    (∀ s : State, ∃ b : Nat → Nat, b 0 = 0 ∧ ∀ k < 4,
      let t : Int := (limbVal (val s ra) k : Int) - limbVal (val s rb) k - b k
      b (k + 1) = (if t < 0 then 1 else 0) ∧
      limbVal (wrapInt 256 ((val s ra : Int) - val s rb)) k = wrapInt 64 t)

/-- MUL wraps modulo 2^N; the 256-bit form equals the schoolbook sum of the limb products with i + j at most 3 (R125, R126). -/
def Obligations.MulWraps : Prop :=
  ∀ rd ra rb : Reg,
    RegRule (.mul128 rd ra rb) (cmdR 0x42 rd ra rb 0 0) rd (fun s => low 128 s ra * low 128 s rb % 2 ^ 128) ∧
    RegRule (.mul256 rd ra rb) (cmdR 0x82 rd ra rb 0 0) rd (fun s => val s ra * val s rb % 2 ^ 256) ∧
    ∀ s : State, val s ra * val s rb % 2 ^ 256 =
      (∑ i ∈ Finset.range 4, ∑ j ∈ Finset.range 4,
        if i + j ≤ 3 then limbVal (val s ra) i * limbVal (val s rb) j * 2 ^ (64 * (i + j)) else 0) % 2 ^ 256

/-- DIV and REM: floor quotient and remainder, DivideByZero for a zero divisor (R127 to R130). -/
def Obligations.DivAndRem : Prop :=
  ∀ rd ra rb : Reg,
    RegRuleErr (.div128 rd ra rb) (cmdR 0x43 rd ra rb 0 0) rd .divideByZero (fun s => low 128 s rb = 0)
      (fun s => low 128 s ra / low 128 s rb) ∧
    RegRuleErr (.div256 rd ra rb) (cmdR 0x83 rd ra rb 0 0) rd .divideByZero (fun s => val s rb = 0)
      (fun s => val s ra / val s rb) ∧
    RegRuleErr (.rem128 rd ra rb) (cmdR 0x44 rd ra rb 0 0) rd .divideByZero (fun s => low 128 s rb = 0)
      (fun s => low 128 s ra % low 128 s rb) ∧
    RegRuleErr (.rem256 rd ra rb) (cmdR 0x84 rd ra rb 0 0) rd .divideByZero (fun s => val s rb = 0)
      (fun s => val s ra % val s rb)

/-- MULDIV.128: the exact product divided, then truncated to 128 bits; it has no 256-bit form (R131). -/
def Obligations.Muldiv128 : Prop :=
  ∀ rd ra rb rc : Reg,
    RegRuleErr (.muldiv128 rd ra rb rc) (cmdR 0x45 rd ra rb rc 0) rd .divideByZero (fun s => low 128 s rc = 0)
      (fun s => low 128 s ra * low 128 s rb / low 128 s rc % 2 ^ 128) ∧
    ∀ w : CmdWord, (opOf w).toNat = 0x85 → decode w = .error .reservedOpcode

/-- POW: Zero for a negative exponent, One for exponent 0 whatever the base, else A^e modulo 2^N (R132, R133, R134). -/
def Obligations.PowWraps : Prop :=
  ∀ rd ra rb : Reg,
    RegRule (.pow128 rd ra rb) (cmdR 0x46 rd ra rb 0 0) rd
      (fun s => powNat 128 (low 128 s ra) (sintOf 64 (low 64 s rb))) ∧
    RegRule (.pow256 rd ra rb) (cmdR 0x86 rd ra rb 0 0) rd
      (fun s => powNat 256 (val s ra) (sintOf 64 (low 64 s rb)))

/-- SQRT: the integer r with r² ≤ A < (r+1)² (R135, R136). -/
def Obligations.SqrtIsTheFloorSquareRoot : Prop :=
  ∀ rd ra : Reg,
    RegRuleProp (.sqrt128 rd ra) (cmdR 0x47 rd ra 0 0 0) rd
      (fun s r => r ^ 2 ≤ low 128 s ra ∧ low 128 s ra < (r + 1) ^ 2) ∧
    RegRuleProp (.sqrt256 rd ra) (cmdR 0x87 rd ra 0 0 0) rd (fun s r => r ^ 2 ≤ val s ra ∧ val s ra < (r + 1) ^ 2)

/-- INC and DEC, in place, wrapping modulo 2^N (R137 to R140). -/
def Obligations.IncAndDecWrap : Prop :=
  ∀ rd : Reg,
    RegRule (.inc128 rd) (cmdR 0x57 rd 0 0 0 0) rd (fun s => (low 128 s rd + 1) % 2 ^ 128) ∧
    RegRule (.inc256 rd) (cmdR 0x97 rd 0 0 0 0) rd (fun s => (val s rd + 1) % 2 ^ 256) ∧
    RegRule (.dec128 rd) (cmdR 0x58 rd 0 0 0 0) rd (fun s => wrapInt 128 ((low 128 s rd : Int) - 1)) ∧
    RegRule (.dec256 rd) (cmdR 0x98 rd 0 0 0 0) rd (fun s => wrapInt 256 ((val s rd : Int) - 1))

/-- For a divisor that is not zero, DIV writes q and REM writes r with r < b and q·b + r = a exactly, at both widths (R141, the
rows on division). -/
def Obligations.QuotientAndRemainderRebuildTheDividend : Prop :=
  ∀ (s : State) (rd ra rb : Reg), 3 ≤ rd.val →
    (low 128 s rb ≠ 0 → ∃ q r, Writes (exec (.div128 rd ra rb) s) rd q s ∧ Writes (exec (.rem128 rd ra rb) s) rd r s ∧
      r < low 128 s rb ∧ q * low 128 s rb + r = low 128 s ra) ∧
    (val s rb ≠ 0 → ∃ q r, Writes (exec (.div256 rd ra rb) s) rd q s ∧ Writes (exec (.rem256 rd ra rb) s) rd r s ∧
      r < val s rb ∧ q * val s rb + r = val s ra)

/-- For every a, a + Max + One = a: ADD of Max, then ADD of One, gives back the N-bit view (R141, R122; 90_conflicts.md C1). -/
def Obligations.AddingMaxThenOneGivesBackTheValue : Prop :=
  ∀ (s t u : State) (rd ra : Reg), 3 ≤ rd.val →
    (exec (.add128 rd ra 2) s = .next t → exec (.add128 rd rd 1) t = .next u → val u rd = low 128 s ra) ∧
    (exec (.add256 rd ra 2) s = .next t → exec (.add256 rd rd 1) t = .next u → val u rd = val s ra)

/-! ### Bitwise, shifts, counts, comparisons, set (42_bitwise_shift_compare.md) -/

/-- AND, OR, XOR, NOT and SET at both widths (R161 to R168, R193, R194). -/
def Obligations.BitwiseAndSet : Prop :=
  ∀ rd ra rb : Reg,
    RegRule (.and128 rd ra rb) (cmdR 0x48 rd ra rb 0 0) rd (fun s => low 128 s ra &&& low 128 s rb) ∧
    RegRule (.and256 rd ra rb) (cmdR 0x88 rd ra rb 0 0) rd (fun s => val s ra &&& val s rb) ∧
    RegRule (.or128 rd ra rb) (cmdR 0x49 rd ra rb 0 0) rd (fun s => low 128 s ra ||| low 128 s rb) ∧
    RegRule (.or256 rd ra rb) (cmdR 0x89 rd ra rb 0 0) rd (fun s => val s ra ||| val s rb) ∧
    RegRule (.xor128 rd ra rb) (cmdR 0x4A rd ra rb 0 0) rd (fun s => low 128 s ra ^^^ low 128 s rb) ∧
    RegRule (.xor256 rd ra rb) (cmdR 0x8A rd ra rb 0 0) rd (fun s => val s ra ^^^ val s rb) ∧
    RegRule (.not128 rd ra) (cmdR 0x4B rd ra 0 0 0) rd (fun s => 2 ^ 128 - 1 - low 128 s ra) ∧
    RegRule (.not256 rd ra) (cmdR 0x8B rd ra 0 0 0) rd (fun s => 2 ^ 256 - 1 - val s ra) ∧
    RegRule (.set128 rd ra) (cmdR 0x59 rd ra 0 0 0) rd (fun s => low 128 s ra) ∧
    RegRule (.set256 rd ra) (cmdR 0x99 rd ra 0 0 0) rd (fun s => val s ra)

/-- SHL and SHR by the signed 64-bit amount of a register, SHLI and SHRI by the signed 16-bit immediate: a negative amount or one
of at least N gives 0, 0 gives A (R169 to R177). -/
def Obligations.ShiftsBySignedAmounts : Prop :=
  ∀ (rd ra rb : Reg) (imm16 : BitVec 16),
    RegRule (.shl128 rd ra rb) (cmdR 0x4C rd ra rb 0 0) rd
      (fun s => shlNat 128 (low 128 s ra) (sintOf 64 (low 64 s rb))) ∧
    RegRule (.shl256 rd ra rb) (cmdR 0x8C rd ra rb 0 0) rd (fun s => shlNat 256 (val s ra) (sintOf 64 (low 64 s rb))) ∧
    RegRule (.shr128 rd ra rb) (cmdR 0x4D rd ra rb 0 0) rd
      (fun s => shrNat 128 (low 128 s ra) (sintOf 64 (low 64 s rb))) ∧
    RegRule (.shr256 rd ra rb) (cmdR 0x8D rd ra rb 0 0) rd (fun s => shrNat 256 (val s ra) (sintOf 64 (low 64 s rb))) ∧
    RegRule (.shli128 rd ra imm16) (cmdI 0x4E rd ra imm16) rd
      (fun s => shlNat 128 (low 128 s ra) (sintOf 16 imm16.toNat)) ∧
    RegRule (.shli256 rd ra imm16) (cmdI 0x8E rd ra imm16) rd
      (fun s => shlNat 256 (val s ra) (sintOf 16 imm16.toNat)) ∧
    RegRule (.shri128 rd ra imm16) (cmdI 0x4F rd ra imm16) rd
      (fun s => shrNat 128 (low 128 s ra) (sintOf 16 imm16.toNat)) ∧
    RegRule (.shri256 rd ra imm16) (cmdI 0x8F rd ra imm16) rd
      (fun s => shrNat 256 (val s ra) (sintOf 16 imm16.toNat))

/-- CLZ: N minus the number of bits of A's binary form, so N for zero (R178, R179). CTZ: the largest k with A mod 2^k = 0, and N
for zero (R180, R181). -/
def Obligations.ZeroCounts : Prop :=
  ∀ rd ra : Reg,
    RegRule (.clz128 rd ra) (cmdR 0x50 rd ra 0 0 0) rd (fun s => 128 - (low 128 s ra).size) ∧
    RegRule (.clz256 rd ra) (cmdR 0x90 rd ra 0 0 0) rd (fun s => 256 - (val s ra).size) ∧
    RegRuleProp (.ctz128 rd ra) (cmdR 0x51 rd ra 0 0 0) rd
      (fun s c => if low 128 s ra = 0 then c = 128 else IsGreatest {k | low 128 s ra % 2 ^ k = 0} c) ∧
    RegRuleProp (.ctz256 rd ra) (cmdR 0x91 rd ra 0 0 0) rd
      (fun s c => if val s ra = 0 then c = 256 else IsGreatest {k | val s ra % 2 ^ k = 0} c)

/-- The comparisons of the N-bit views as unsigned numbers write 1 or 0 (R183 to R192). -/
def Obligations.ComparisonsWriteOneOrZero : Prop :=
  ∀ rd ra rb : Reg,
    RegRule (.cmpeq128 rd ra rb) (cmdR 0x52 rd ra rb 0 0) rd (fun s => if low 128 s ra = low 128 s rb then 1 else 0) ∧
    RegRule (.cmplt128 rd ra rb) (cmdR 0x53 rd ra rb 0 0) rd (fun s => if low 128 s ra < low 128 s rb then 1 else 0) ∧
    RegRule (.cmple128 rd ra rb) (cmdR 0x54 rd ra rb 0 0) rd (fun s => if low 128 s ra ≤ low 128 s rb then 1 else 0) ∧
    RegRule (.cmpgt128 rd ra rb) (cmdR 0x55 rd ra rb 0 0) rd (fun s => if low 128 s ra > low 128 s rb then 1 else 0) ∧
    RegRule (.cmpge128 rd ra rb) (cmdR 0x56 rd ra rb 0 0) rd (fun s => if low 128 s ra ≥ low 128 s rb then 1 else 0) ∧
    RegRule (.cmpeq256 rd ra rb) (cmdR 0x92 rd ra rb 0 0) rd (fun s => if val s ra = val s rb then 1 else 0) ∧
    RegRule (.cmplt256 rd ra rb) (cmdR 0x93 rd ra rb 0 0) rd (fun s => if val s ra < val s rb then 1 else 0) ∧
    RegRule (.cmple256 rd ra rb) (cmdR 0x94 rd ra rb 0 0) rd (fun s => if val s ra ≤ val s rb then 1 else 0) ∧
    RegRule (.cmpgt256 rd ra rb) (cmdR 0x95 rd ra rb 0 0) rd (fun s => if val s ra > val s rb then 1 else 0) ∧
    RegRule (.cmpge256 rd ra rb) (cmdR 0x96 rd ra rb 0 0) rd (fun s => if val s ra ≥ val s rb then 1 else 0)

/-- CMPLT.256 writes 1 exactly when the first limb, counting down from limb 3, in which the operands differ is smaller in A: the
order is lexicographic from the most significant limb (R182). -/
def Obligations.CompareIsLexicographicOverLimbs : Prop :=
  ∀ (s t : State) (rd ra rb : Reg), 3 ≤ rd.val → exec (.cmplt256 rd ra rb) s = .next t →
    (val t rd = 1 ↔ ∃ k < 4, limbVal (val s ra) k < limbVal (val s rb) k ∧
      ∀ j < 4, k < j → limbVal (val s ra) j = limbVal (val s rb) j) ∧
    (val t rd = 0 ∨ val t rd = 1)

/-! ### Conversions (43_convert.md) -/

/-- The encodings of the conversions and serializers: one word each, every field the row does not list being 0, every type code
and every radix having a word (R75, R77). -/
def Obligations.ConversionAndSerializerEncodings : Prop :=
  ∀ (rd ra rb : Reg) (x : Byte),
    HasEncoding (.from128 rd ra x) (cmdR 0x5A rd ra 0 0 x.toNat) ∧
    HasEncoding (.from256 rd ra x) (cmdR 0x9A rd ra 0 0 x.toNat) ∧
    HasEncoding (.to128 rd ra x) (cmdR 0x5B rd ra 0 0 x.toNat) ∧
    HasEncoding (.to256 rd ra x) (cmdR 0x9B rd ra 0 0 x.toNat) ∧
    HasEncoding (.bldle128 rd ra rb) (cmdR 0x5C rd ra rb 0 0) ∧ HasEncoding (.bldle256 rd ra rb) (cmdR 0x9C rd ra rb 0 0) ∧
    HasEncoding (.bldbe128 rd ra rb) (cmdR 0x5D rd ra rb 0 0) ∧ HasEncoding (.bldbe256 rd ra rb) (cmdR 0x9D rd ra rb 0 0) ∧
    HasEncoding (.bstle128 rd ra rb) (cmdR 0x5E rd ra rb 0 0) ∧ HasEncoding (.bstle256 rd ra rb) (cmdR 0x9E rd ra rb 0 0) ∧
    HasEncoding (.bstbe128 rd ra rb) (cmdR 0x5F rd ra rb 0 0) ∧ HasEncoding (.bstbe256 rd ra rb) (cmdR 0x9F rd ra rb 0 0) ∧
    HasEncoding (.parse128 rd ra rb x) (cmdR 0x60 rd ra rb 0 x.toNat) ∧
    HasEncoding (.parse256 rd ra rb x) (cmdR 0xA0 rd ra rb 0 x.toNat) ∧
    HasEncoding (.fmt128 rd ra rb x) (cmdR 0x61 rd ra rb 0 x.toNat) ∧
    HasEncoding (.fmt256 rd ra rb x) (cmdR 0xA1 rd ra rb 0 x.toNat)

/-- FROM with the type codes of booleans, integers and the other width, and the codes that name no type (R200, R201, R207, R208);
floats have statements of their own. -/
def Obligations.FromIntegersAndOther : Prop :=
  ∀ (rd ra : Reg) (s : State), 3 ≤ rd.val →
    Writes (exec (.from128 rd ra 0) s) rd (if val s ra = 0 then 0 else 1) s ∧
    Writes (exec (.from256 rd ra 0) s) rd (if val s ra = 0 then 0 else 1) s ∧
    (∀ c w, (c, w) ∈ [(1, 8), (2, 16), (3, 32), (4, 64)] →
      Writes (exec (.from128 rd ra (BitVec.ofNat 8 c)) s) rd (low w s ra) s ∧
      Writes (exec (.from256 rd ra (BitVec.ofNat 8 c)) s) rd (low w s ra) s) ∧
    (∀ c w, (c, w) ∈ [(5, 8), (6, 16), (7, 32), (8, 64)] →
      Writes (exec (.from128 rd ra (BitVec.ofNat 8 c)) s) rd (wrapInt 128 (sintOf w (low w s ra))) s ∧
      Writes (exec (.from256 rd ra (BitVec.ofNat 8 c)) s) rd (wrapInt 256 (sintOf w (low w s ra))) s) ∧
    Writes (exec (.from128 rd ra 11) s) rd (val s ra % 2 ^ 128) s ∧
    Writes (exec (.from256 rd ra 11) s) rd (low 128 s ra) s ∧
    (∀ t : Byte, 12 ≤ t.toNat →
      EndsWith (exec (.from128 rd ra t) s) .unsupportedType s ∧ EndsWith (exec (.from256 rd ra t) s) .unsupportedType s)

/-- FROM of a finite float: the magnitude truncated toward zero, with its sign, modulo 2^N (R202, R205). FROM of a NaN or an
infinity: status OK and the open parameter F2U_NONFINITE, whatever it is (R206). -/
def Obligations.FromFloatTruncatesOrIsOpen : Prop :=
  ∀ (rd ra : Reg) (s : State), 3 ≤ rd.val →
    (low 64 s ra / 2 ^ 52 % 2 ^ 11 ≠ 2047 →
      let w : Int := ⌊floatMagnitude .binary64 (low 64 s ra)⌋
      let v : Int := if low 64 s ra / 2 ^ 63 = 1 then -w else w
      Writes (exec (.from128 rd ra 10) s) rd (wrapInt 128 v) s ∧ Writes (exec (.from256 rd ra 10) s) rd (wrapInt 256 v) s) ∧
    (low 32 s ra / 2 ^ 23 % 2 ^ 8 ≠ 255 →
      let w : Int := ⌊floatMagnitude .binary32 (low 32 s ra)⌋
      let v : Int := if low 32 s ra / 2 ^ 31 = 1 then -w else w
      Writes (exec (.from128 rd ra 9) s) rd (wrapInt 128 v) s ∧ Writes (exec (.from256 rd ra 9) s) rd (wrapInt 256 v) s) ∧
    (low 64 s ra / 2 ^ 52 % 2 ^ 11 = 2047 →
      Writes (exec (.from128 rd ra 10) s) rd (Config.f2uNonfinite 128 .binary64 (BitVec.ofNat 64 (low 64 s ra))).toNat s ∧
      Writes (exec (.from256 rd ra 10) s) rd (Config.f2uNonfinite 256 .binary64 (BitVec.ofNat 64 (low 64 s ra))).toNat s) ∧
    (low 32 s ra / 2 ^ 23 % 2 ^ 8 = 255 →
      Writes (exec (.from128 rd ra 9) s) rd (Config.f2uNonfinite 128 .binary32 (BitVec.ofNat 64 (low 32 s ra))).toNat s ∧
      Writes (exec (.from256 rd ra 9) s) rd (Config.f2uNonfinite 256 .binary32 (BitVec.ofNat 64 (low 32 s ra))).toNat s)

/-- TO with the type codes of booleans, integers and the other width, and the codes that name no type (R200, R201, R209, R210);
floats have statements of their own. -/
def Obligations.ToIntegersAndOther : Prop :=
  ∀ (rd ra : Reg) (s : State), 3 ≤ rd.val →
    Writes (exec (.to128 rd ra 0) s) rd (if low 128 s ra = 0 then 0 else 1) s ∧
    Writes (exec (.to256 rd ra 0) s) rd (if val s ra = 0 then 0 else 1) s ∧
    (∀ c w, (c, w) ∈ [(1, 8), (2, 16), (3, 32), (4, 64), (5, 8), (6, 16), (7, 32), (8, 64)] →
      Writes (exec (.to128 rd ra (BitVec.ofNat 8 c)) s) rd (low 128 s ra % 2 ^ w) s ∧
      Writes (exec (.to256 rd ra (BitVec.ofNat 8 c)) s) rd (val s ra % 2 ^ w) s) ∧
    Writes (exec (.to128 rd ra 11) s) rd (low 128 s ra) s ∧
    Writes (exec (.to256 rd ra 11) s) rd (val s ra % 2 ^ 128) s ∧
    (∀ t : Byte, 12 ≤ t.toNat →
      EndsWith (exec (.to128 rd ra t) s) .unsupportedType s ∧ EndsWith (exec (.to256 rd ra t) s) .unsupportedType s)

/-- TO with type f64 writes the binary64 pattern nearest to the value, ties to even: for every value of both widths (R203). -/
def Obligations.ToDoubleRoundsToNearestEven : Prop :=
  ∀ (rd ra : Reg) (s : State), 3 ≤ rd.val →
    (∃ b, RoundsToNearestEven .binary64 (low 128 s ra) b ∧ Writes (exec (.to128 rd ra 10) s) rd b s) ∧
    (∃ b, RoundsToNearestEven .binary64 (val s ra) b ∧ Writes (exec (.to256 rd ra 10) s) rd b s)

/-- TO with type f32 writes +infinity from 2^128 − 2^103 on and else the binary32 pattern nearest to the value, ties to even
(R204). -/
def Obligations.ToSingleRoundsToNearestEvenOrOverflows : Prop :=
  ∀ (rd ra : Reg) (s : State), 3 ≤ rd.val →
    (∃ b, (if low 128 s ra < 2 ^ 128 - 2 ^ 103 then RoundsToNearestEven .binary32 (low 128 s ra) b else b = 0x7F800000) ∧
      Writes (exec (.to128 rd ra 9) s) rd b s) ∧
    (∃ b, (if val s ra < 2 ^ 128 - 2 ^ 103 then RoundsToNearestEven .binary32 (val s ra) b else b = 0x7F800000) ∧
      Writes (exec (.to256 rd ra 9) s) rd b s)

/-- The round trip through f64 gives back every N-bit view below 2^53, through f32 every one below 2^24 (R211). -/
def Obligations.FloatRoundTripIsExactBelowThePrecision : Prop :=
  ∀ (s t u : State) (rd ra : Reg), 3 ≤ rd.val →
    (low 128 s ra < 2 ^ 53 →
      exec (.to128 rd ra 10) s = .next t → exec (.from128 rd rd 10) t = .next u → val u rd = low 128 s ra) ∧
    (val s ra < 2 ^ 53 →
      exec (.to256 rd ra 10) s = .next t → exec (.from256 rd rd 10) t = .next u → val u rd = val s ra) ∧
    (low 128 s ra < 2 ^ 24 →
      exec (.to128 rd ra 9) s = .next t → exec (.from128 rd rd 9) t = .next u → val u rd = low 128 s ra) ∧
    (val s ra < 2 ^ 24 →
      exec (.to256 rd ra 9) s = .next t → exec (.from256 rd rd 9) t = .next u → val u rd = val s ra)

/-! ### Serializers (44_serialize.md) -/

/-- BLDLE and BLDBE where the destination is general: a length other than N/8 raises InvalidLength; else, where the N/8 bytes
from x[ra] mod 256 on (wrapping) have the values `b`, x[rd] is the number they encode (R231 to R234, R44). -/
def Obligations.LoadsDecodeTheBytes : Prop :=
  ∀ (rd ra rb : Reg) (s : State), 3 ≤ rd.val →
    (val s rb ≠ 16 → EndsWith (exec (.bldle128 rd ra rb) s) .invalidLength s ∧
      EndsWith (exec (.bldbe128 rd ra rb) s) .invalidLength s) ∧
    (val s rb ≠ 32 → EndsWith (exec (.bldle256 rd ra rb) s) .invalidLength s ∧
      EndsWith (exec (.bldbe256 rd ra rb) s) .invalidLength s) ∧
    (∀ b : Nat → Byte, val s rb = 16 → (∀ j < 16, s.buf.read ((val s ra % 256 + j) % 256) = some (b j)) →
      Writes (exec (.bldle128 rd ra rb) s) rd (∑ j ∈ Finset.range 16, (b j).toNat * 2 ^ (8 * j)) s ∧
      Writes (exec (.bldbe128 rd ra rb) s) rd (∑ j ∈ Finset.range 16, (b j).toNat * 2 ^ (8 * (15 - j))) s) ∧
    (∀ b : Nat → Byte, val s rb = 32 → (∀ j < 32, s.buf.read ((val s ra % 256 + j) % 256) = some (b j)) →
      Writes (exec (.bldle256 rd ra rb) s) rd (∑ j ∈ Finset.range 32, (b j).toNat * 2 ^ (8 * j)) s ∧
      Writes (exec (.bldbe256 rd ra rb) s) rd (∑ j ∈ Finset.range 32, (b j).toNat * 2 ^ (8 * (31 - j))) s)

/-- BSTLE and BSTBE: a length other than N/8 raises InvalidLength; else status OK, no register changes, byte j of the access is
the byte R44 gives, every other BUF byte is as before. Any register may be the value, x0 to x2 too (R235 to R238). -/
def Obligations.StoresEncodeTheBytes : Prop :=
  ∀ (rs ra rb : Reg) (s : State) (n : Nat) (le be : Instr),
    (n, le, be) ∈ [(16, Instr.bstle128 rs ra rb, Instr.bstbe128 rs ra rb), (32, .bstle256 rs ra rb, .bstbe256 rs ra rb)] →
    (val s rb ≠ n → EndsWith (exec le s) .invalidLength s ∧ EndsWith (exec be s) .invalidLength s) ∧
    (val s rb = n →
      (∃ t, exec le s = .next t ∧ t = respond .ok { s with buf := t.buf } ∧
        (∀ j < n, t.buf.read ((val s ra % 256 + j) % 256) = some (BitVec.ofNat 8 (val s rs / 2 ^ (8 * j)))) ∧
        ∀ a, (∀ j < n, a ≠ (val s ra % 256 + j) % 256) → t.buf.read a = s.buf.read a) ∧
      (∃ t, exec be s = .next t ∧ t = respond .ok { s with buf := t.buf } ∧
        (∀ j < n, t.buf.read ((val s ra % 256 + j) % 256) = some (BitVec.ofNat 8 (val s rs / 2 ^ (8 * (n - 1 - j))))) ∧
        ∀ a, (∀ j < n, a ≠ (val s ra % 256 + j) % 256) → t.buf.read a = s.buf.read a))

/-- Decoding is the exact inverse of encoding in the same order: a store that ends with OK and a load of the same order, width,
address and length register gives back the N-bit view of the stored register (R44, R236). -/
def Obligations.LoadAfterStoreGivesTheValue : Prop :=
  ∀ (s t : State) (rs ra rb rd : Reg), 3 ≤ rd.val → t.rspStatus = .ok →
    (exec (.bstle128 rs ra rb) s = .next t → Writes (exec (.bldle128 rd ra rb) t) rd (low 128 s rs) t) ∧
    (exec (.bstbe128 rs ra rb) s = .next t → Writes (exec (.bldbe128 rd ra rb) t) rd (low 128 s rs) t) ∧
    (exec (.bstle256 rs ra rb) s = .next t → Writes (exec (.bldle256 rd ra rb) t) rd (val s rs) t) ∧
    (exec (.bstbe256 rs ra rb) s = .next t → Writes (exec (.bldbe256 rd ra rb) t) rd (val s rs) t)

/-- PARSE where the destination is general: the errors in their order, and the value of a string of digits, accumulated modulo
2^N, the empty string giving 0 (R239 to R242, R309). -/
def Obligations.ParseReadsAString : Prop :=
  ∀ (rd ra rb : Reg) (radix : Byte) (s : State), 3 ≤ rd.val →
    (radix.toNat ≠ 10 → radix.toNat ≠ 16 → EndsWith (exec (.parse128 rd ra rb radix) s) .invalidRadix s ∧
      EndsWith (exec (.parse256 rd ra rb radix) s) .invalidRadix s) ∧
    (radix.toNat = 10 ∨ radix.toNat = 16 →
      (256 < val s rb → EndsWith (exec (.parse128 rd ra rb radix) s) .invalidLength s ∧
        EndsWith (exec (.parse256 rd ra rb radix) s) .invalidLength s) ∧
      (∀ c : Nat → Byte, val s rb ≤ 256 → (∀ j < val s rb, s.buf.read ((val s ra % 256 + j) % 256) = some (c j)) →
        ((∃ j < val s rb, digitValue? radix.toNat (c j) = none) →
          EndsWith (exec (.parse128 rd ra rb radix) s) .invalidCharacter s ∧
          EndsWith (exec (.parse256 rd ra rb radix) s) .invalidCharacter s) ∧
        (∀ d : Nat → Nat, (∀ j < val s rb, digitValue? radix.toNat (c j) = some (d j)) →
          Writes (exec (.parse128 rd ra rb radix) s) rd
            ((∑ j ∈ Finset.range (val s rb), d j * radix.toNat ^ (val s rb - 1 - j)) % 2 ^ 128) s ∧
          Writes (exec (.parse256 rd ra rb radix) s) rd
            ((∑ j ∈ Finset.range (val s rb), d j * radix.toNat ^ (val s rb - 1 - j)) % 2 ^ 256) s)))

/-- The digit values of R239: `0` to `9` in both radices, `a` to `f` and `A` to `F` in radix 16, nothing else. -/
def Obligations.DigitValues : Prop :=
  ∀ c : Byte,
    (0x30 ≤ c.toNat → c.toNat ≤ 0x39 → digitValue? 10 c = some (c.toNat - 0x30) ∧ digitValue? 16 c = some (c.toNat - 0x30)) ∧
    (0x61 ≤ c.toNat → c.toNat ≤ 0x66 → digitValue? 10 c = none ∧ digitValue? 16 c = some (c.toNat - 0x61 + 10)) ∧
    (0x41 ≤ c.toNat → c.toNat ≤ 0x46 → digitValue? 10 c = none ∧ digitValue? 16 c = some (c.toNat - 0x41 + 10)) ∧
    ((c.toNat < 0x30 ∨ 0x39 < c.toNat) → (c.toNat < 0x61 ∨ 0x66 < c.toNat) → (c.toNat < 0x41 ∨ 0x46 < c.toNat) →
      digitValue? 10 c = none ∧ digitValue? 16 c = none)

/-- FMT where the destination is general: a radix other than 10 and 16 raises InvalidRadix; else the digits of the value, most
significant first, no leading zero, "0" for 0, stand in BUF from x[ra] mod 256 on (wrapping), x[rd] is their number, and no other
byte or register changes (R243, R244, R245). -/
def Obligations.FormatWritesTheDigits : Prop :=
  ∀ (rd ra rb : Reg) (radix : Byte) (s : State) (i : Instr) (v : Nat), 3 ≤ rd.val →
    (i, v) ∈ [(Instr.fmt128 rd ra rb radix, low 128 s rb), (Instr.fmt256 rd ra rb radix, val s rb)] →
    (radix.toNat ≠ 10 → radix.toNat ≠ 16 → EndsWith (exec i s) .invalidRadix s) ∧
    (radix.toNat = 10 ∨ radix.toNat = 16 →
      let ds := if v = 0 then [0] else (Nat.digits radix.toNat v).reverse
      ds.length ≤ 78 ∧
      ∃ t, exec i s = .next t ∧ t = respond .ok (writeReg { s with buf := t.buf } rd (BitVec.ofNat 256 ds.length)) ∧
        (∀ j, (hj : j < ds.length) → t.buf.read ((val s ra % 256 + j) % 256) =
          some (BitVec.ofNat 8 (if ds[j] < 10 then 0x30 + ds[j] else 0x61 + (ds[j] - 10)))) ∧
        ∀ a, (∀ j < ds.length, a ≠ (val s ra % 256 + j) % 256) → t.buf.read a = s.buf.read a)

/-- Parsing what FMT wrote, with the length it returned, in the same radix, gives the value back (R243). FMT's destination must
not be the address register, which PARSE reads again. -/
def Obligations.ParseAfterFormatGivesTheValue : Prop :=
  ∀ (s t : State) (rl ra rb rd : Reg) (radix : Byte), 3 ≤ rd.val → rl ≠ ra → t.rspStatus = .ok →
    (exec (.fmt128 rl ra rb radix) s = .next t → Writes (exec (.parse128 rd ra rl radix) t) rd (low 128 s rb) t) ∧
    (exec (.fmt256 rl ra rb radix) s = .next t → Writes (exec (.parse256 rd ra rl radix) t) rd (val s rb) t)

/-! ### Pseudo-instructions (30_encoding.md R82) -/

/-- The expansion of each pseudo-instruction, and what it does (R82: "The meanings are derived from the rules of the
expansions."). A destination x0, x1 or x2 is the violation of ConstantRegistersCannotChange. -/
def Obligations.PseudoInstructionMeanings : Prop :=
  (∀ xd xa : Reg,
    Pseudo.expand (.mov128 xd xa) = .set128 xd xa ∧ Pseudo.expand (.mov256 xd xa) = .set256 xd xa ∧
    Pseudo.expand (.clr xd) = .set256 xd 0 ∧ Pseudo.expand (.ldmax128 xd) = .set128 xd 2 ∧
    Pseudo.expand (.ldmax256 xd) = .set256 xd 2 ∧ Pseudo.expand (.neg128 xd xa) = .sub128 xd 0 xa ∧
    Pseudo.expand (.neg256 xd xa) = .sub256 xd 0 xa ∧ Pseudo.expand (.getcarry xd xa) = .limbget xd xa 1 ∧
    Pseudo.expand (.getrem xd xa) = .shri256 xd xa 128 ∧ Pseudo.expand (.getquo xd xa) = .set128 xd xa) ∧
  ∀ (xd xa : Reg) (s : State), 3 ≤ xd.val →
    Writes (exec (Pseudo.expand (.mov128 xd xa)) s) xd (low 128 s xa) s ∧
    Writes (exec (Pseudo.expand (.mov256 xd xa)) s) xd (val s xa) s ∧
    Writes (exec (Pseudo.expand (.clr xd)) s) xd 0 s ∧
    Writes (exec (Pseudo.expand (.ldmax128 xd)) s) xd (2 ^ 128 - 1) s ∧
    Writes (exec (Pseudo.expand (.ldmax256 xd)) s) xd (2 ^ 256 - 1) s ∧
    Writes (exec (Pseudo.expand (.neg128 xd xa)) s) xd ((2 ^ 128 - low 128 s xa) % 2 ^ 128) s ∧
    Writes (exec (Pseudo.expand (.neg256 xd xa)) s) xd ((2 ^ 256 - val s xa) % 2 ^ 256) s ∧
    Writes (exec (Pseudo.expand (.getcarry xd xa)) s) xd (val s xa / 2 ^ 64 % 2 ^ 64) s ∧
    Writes (exec (Pseudo.expand (.getrem xd xa)) s) xd (val s xa / 2 ^ 128) s ∧
    Writes (exec (Pseudo.expand (.getquo xd xa)) s) xd (val s xa % 2 ^ 128) s

/-! ### Terms that have no word -/

/-- A limb index above 3 has no word (R78), and its term ends as an illegal command: that it does is the model's reading
(notes/assumptions/17.md). -/
def Obligations.LimbIndexAboveThreeIsIllegal : Prop :=
  ∀ (rd ra rb : Reg) (k : Byte) (s : State) (w : CmdWord), 4 ≤ k.toNat →
    decode w ≠ .ok (.limbget rd ra k) ∧ decode w ≠ .ok (.limbset rd ra rb k) ∧
    EndsWith (exec (.limbget rd ra k) s) .illegalCommand s ∧ EndsWith (exec (.limbset rd ra rb k) s) .illegalCommand s
end

