-- ==== Sys2Proof/Laws/Decode.lean ====
section
/-! SUPPORT. The fields of a word and the word of its fields. -/

namespace Sys2Proof

theorem regBits_toNat (r : Reg) : (regBits r).toNat = r.val := rfl

theorem toFin_regBits (r : Reg) : (regBits r).toFin = r := rfl

/-- A format R word as the sum of its shifted fields (30_encoding.md R71, R83). -/
theorem wordR_toNat (op : BitVec 8) (rd ra rb rc : Reg) (aux : Byte) :
    (wordR op rd ra rb rc aux).toNat =
      op.toNat * 2 ^ 24 + rd.val * 2 ^ 20 + ra.val * 2 ^ 16 + rb.val * 2 ^ 12 + rc.val * 2 ^ 8 + aux.toNat := by
  have hop := op.isLt; have hd := rd.isLt; have ha := ra.isLt
  have hb := rb.isLt; have hc := rc.isLt; have hx := aux.isLt
  unfold wordR
  simp only [BitVec.toNat_append, regBits_toNat]
  rw [← Nat.shiftLeft_add_eq_or_of_lt (by omega), ← Nat.shiftLeft_add_eq_or_of_lt (by omega),
    ← Nat.shiftLeft_add_eq_or_of_lt (by omega), ← Nat.shiftLeft_add_eq_or_of_lt (by omega),
    ← Nat.shiftLeft_add_eq_or_of_lt (by omega)]
  simp only [Nat.shiftLeft_eq]
  omega

/-- A format I word as the sum of its shifted fields (30_encoding.md R72, R83). -/
theorem wordI_toNat (op : BitVec 8) (rd ra : Reg) (imm16 : BitVec 16) :
    (wordI op rd ra imm16).toNat = op.toNat * 2 ^ 24 + rd.val * 2 ^ 20 + ra.val * 2 ^ 16 + imm16.toNat := by
  have hop := op.isLt; have hd := rd.isLt; have ha := ra.isLt; have hx := imm16.isLt
  unfold wordI
  simp only [BitVec.toNat_append, regBits_toNat]
  rw [← Nat.shiftLeft_add_eq_or_of_lt (by omega), ← Nat.shiftLeft_add_eq_or_of_lt (by omega),
    ← Nat.shiftLeft_add_eq_or_of_lt (by omega)]
  simp only [Nat.shiftLeft_eq]
  omega

/-! ### Reading a field back -/

theorem opOf_wordR (op : BitVec 8) (rd ra rb rc : Reg) (aux : Byte) : opOf (wordR op rd ra rb rc aux) = op := by
  apply BitVec.eq_of_toNat_eq
  simp only [opOf, BitVec.extractLsb'_toNat, wordR_toNat, Nat.shiftRight_eq_div_pow]
  omega

theorem rdOf_wordR (op : BitVec 8) (rd ra rb rc : Reg) (aux : Byte) : rdOf (wordR op rd ra rb rc aux) = rd := by
  apply Fin.ext
  simp only [rdOf, BitVec.val_toFin, BitVec.extractLsb'_toNat, wordR_toNat, Nat.shiftRight_eq_div_pow]
  omega

theorem raOf_wordR (op : BitVec 8) (rd ra rb rc : Reg) (aux : Byte) : raOf (wordR op rd ra rb rc aux) = ra := by
  apply Fin.ext
  simp only [raOf, BitVec.val_toFin, BitVec.extractLsb'_toNat, wordR_toNat, Nat.shiftRight_eq_div_pow]
  omega

theorem rbOf_wordR (op : BitVec 8) (rd ra rb rc : Reg) (aux : Byte) : rbOf (wordR op rd ra rb rc aux) = rb := by
  apply Fin.ext
  simp only [rbOf, BitVec.val_toFin, BitVec.extractLsb'_toNat, wordR_toNat, Nat.shiftRight_eq_div_pow]
  omega

theorem rcOf_wordR (op : BitVec 8) (rd ra rb rc : Reg) (aux : Byte) : rcOf (wordR op rd ra rb rc aux) = rc := by
  apply Fin.ext
  simp only [rcOf, BitVec.val_toFin, BitVec.extractLsb'_toNat, wordR_toNat, Nat.shiftRight_eq_div_pow]
  omega

theorem auxOf_wordR (op : BitVec 8) (rd ra rb rc : Reg) (aux : Byte) : auxOf (wordR op rd ra rb rc aux) = aux := by
  apply BitVec.eq_of_toNat_eq
  simp only [auxOf, BitVec.extractLsb'_toNat, wordR_toNat, Nat.shiftRight_eq_div_pow]
  omega

theorem opOf_wordI (op : BitVec 8) (rd ra : Reg) (imm16 : BitVec 16) : opOf (wordI op rd ra imm16) = op := by
  apply BitVec.eq_of_toNat_eq
  simp only [opOf, BitVec.extractLsb'_toNat, wordI_toNat, Nat.shiftRight_eq_div_pow]
  omega

theorem rdOf_wordI (op : BitVec 8) (rd ra : Reg) (imm16 : BitVec 16) : rdOf (wordI op rd ra imm16) = rd := by
  apply Fin.ext
  simp only [rdOf, BitVec.val_toFin, BitVec.extractLsb'_toNat, wordI_toNat, Nat.shiftRight_eq_div_pow]
  omega

theorem raOf_wordI (op : BitVec 8) (rd ra : Reg) (imm16 : BitVec 16) : raOf (wordI op rd ra imm16) = ra := by
  apply Fin.ext
  simp only [raOf, BitVec.val_toFin, BitVec.extractLsb'_toNat, wordI_toNat, Nat.shiftRight_eq_div_pow]
  omega

theorem immOf_wordI (op : BitVec 8) (rd ra : Reg) (imm16 : BitVec 16) : immOf (wordI op rd ra imm16) = imm16 := by
  apply BitVec.eq_of_toNat_eq
  simp only [immOf, BitVec.extractLsb'_toNat, wordI_toNat, Nat.shiftRight_eq_div_pow]
  omega

/-! ### Masks (30_encoding.md R77, R80)

The mask of a row acts on each field by itself. -/

theorem wordR_and (op op' : BitVec 8) (rd rd' ra ra' rb rb' rc rc' : Reg) (aux aux' : Byte) :
    wordR op rd ra rb rc aux &&& wordR op' rd' ra' rb' rc' aux' =
      (op &&& op') ++ (regBits rd &&& regBits rd') ++ (regBits ra &&& regBits ra') ++ (regBits rb &&& regBits rb') ++
        (regBits rc &&& regBits rc') ++ (aux &&& aux') := by
  unfold wordR
  change @HAnd.hAnd (BitVec (8 + 4 + 4 + 4 + 4 + 8)) (BitVec (8 + 4 + 4 + 4 + 4 + 8)) _ _ _ _ = _
  iterate 5 rw [BitVec.and_append]

theorem wordI_and (op op' : BitVec 8) (rd rd' ra ra' : Reg) (i i' : BitVec 16) :
    wordI op rd ra i &&& wordI op' rd' ra' i' =
      (op &&& op') ++ (regBits rd &&& regBits rd') ++ (regBits ra &&& regBits ra') ++ (i &&& i') := by
  unfold wordI
  change @HAnd.hAnd (BitVec (8 + 4 + 4 + 16)) (BitVec (8 + 4 + 4 + 16)) _ _ _ _ = _
  iterate 3 rw [BitVec.and_append]

/-- A field under a mask of zeros contributes nothing. -/
theorem regBits_and_zero (r : Reg) : regBits r &&& regBits 0 = regBits 0 := by
  change regBits r &&& 0#4 = 0#4
  exact BitVec.and_zero

/-- A zero field stays zero under any mask. -/
theorem regBits_zero_and (r : Reg) : regBits 0 &&& regBits r = regBits 0 := by
  change 0#4 &&& regBits r = 0#4
  exact BitVec.zero_and

/-! One lemma for each mask of the table: what it leaves of a word whose fields under it are as the row wants them. -/

theorem mask_rrrr (op : BitVec 8) (rd ra rb rc : Reg) :
    wordR op rd ra rb rc 0 &&& 0xFF0000FF#32 = wordR op 0 0 0 0 0 := by
  have h : (0xFF0000FF#32 : CmdWord) = wordR 0xFF 0 0 0 0 0xFF := by decide
  rw [h, wordR_and]
  simp only [regBits_and_zero]
  rw [show op &&& 0xFF = op from BitVec.and_allOnes, show (0 : Byte) &&& 0xFF = 0 from rfl]
  rfl

theorem mask_rrr (op : BitVec 8) (rd ra rb : Reg) : wordR op rd ra rb 0 0 &&& 0xFF000FFF#32 = wordR op 0 0 0 0 0 := by
  have h : (0xFF000FFF#32 : CmdWord) = wordR 0xFF 0 0 0 15 0xFF := by decide
  rw [h, wordR_and]
  simp only [regBits_and_zero, regBits_zero_and]
  rw [show op &&& 0xFF = op from BitVec.and_allOnes, show (0 : Byte) &&& 0xFF = 0 from rfl]
  rfl

theorem mask_rr (op : BitVec 8) (rd ra : Reg) : wordR op rd ra 0 0 0 &&& 0xFF00FFFF#32 = wordR op 0 0 0 0 0 := by
  have h : (0xFF00FFFF#32 : CmdWord) = wordR 0xFF 0 0 15 15 0xFF := by decide
  rw [h, wordR_and]
  simp only [regBits_and_zero, regBits_zero_and]
  rw [show op &&& 0xFF = op from BitVec.and_allOnes, show (0 : Byte) &&& 0xFF = 0 from rfl]
  rfl

theorem mask_r (op : BitVec 8) (rd : Reg) : wordR op rd 0 0 0 0 &&& 0xFF0FFFFF#32 = wordR op 0 0 0 0 0 := by
  have h : (0xFF0FFFFF#32 : CmdWord) = wordR 0xFF 0 15 15 15 0xFF := by decide
  rw [h, wordR_and]
  simp only [regBits_and_zero, regBits_zero_and]
  rw [show op &&& 0xFF = op from BitVec.and_allOnes, show (0 : Byte) &&& 0xFF = 0 from rfl]
  rfl

theorem mask_rrt (op : BitVec 8) (rd ra : Reg) (t : Byte) :
    wordR op rd ra 0 0 t &&& 0xFF00FF00#32 = wordR op 0 0 0 0 0 := by
  have h : (0xFF00FF00#32 : CmdWord) = wordR 0xFF 0 0 15 15 0 := by decide
  rw [h, wordR_and]
  simp only [regBits_and_zero, regBits_zero_and]
  rw [show op &&& 0xFF = op from BitVec.and_allOnes, show t &&& (0 : Byte) = 0 from BitVec.and_zero]
  rfl

theorem mask_rrrx (op : BitVec 8) (rd ra rb : Reg) (x : Byte) :
    wordR op rd ra rb 0 x &&& 0xFF000F00#32 = wordR op 0 0 0 0 0 := by
  have h : (0xFF000F00#32 : CmdWord) = wordR 0xFF 0 0 0 15 0 := by decide
  rw [h, wordR_and]
  simp only [regBits_and_zero, regBits_zero_and]
  rw [show op &&& 0xFF = op from BitVec.and_allOnes, show x &&& (0 : Byte) = 0 from BitVec.and_zero]
  rfl

theorem limbIndex_mask {k : Byte} (hk : limbIndexOk k = true) : k &&& 0xFC = 0 := by
  revert k; decide

theorem mask_rrk (op : BitVec 8) (rd ra : Reg) {k : Byte} (hk : limbIndexOk k = true) :
    wordR op rd ra 0 0 k &&& 0xFF00FFFC#32 = wordR op 0 0 0 0 0 := by
  have h : (0xFF00FFFC#32 : CmdWord) = wordR 0xFF 0 0 15 15 0xFC := by decide
  rw [h, wordR_and]
  simp only [regBits_and_zero, regBits_zero_and]
  rw [show op &&& 0xFF = op from BitVec.and_allOnes, show k &&& 0xFC = 0 from limbIndex_mask hk]
  rfl

theorem mask_rrrk (op : BitVec 8) (rd ra rb : Reg) {k : Byte} (hk : limbIndexOk k = true) :
    wordR op rd ra rb 0 k &&& 0xFF000FFC#32 = wordR op 0 0 0 0 0 := by
  have h : (0xFF000FFC#32 : CmdWord) = wordR 0xFF 0 0 0 15 0xFC := by decide
  rw [h, wordR_and]
  simp only [regBits_and_zero, regBits_zero_and]
  rw [show op &&& 0xFF = op from BitVec.and_allOnes, show k &&& 0xFC = 0 from limbIndex_mask hk]
  rfl

theorem mask_ri (op : BitVec 8) (rd : Reg) (i : BitVec 16) : wordI op rd 0 i &&& 0xFF0F0000#32 = wordI op 0 0 0 := by
  have h : (0xFF0F0000#32 : CmdWord) = wordI 0xFF 0 15 0 := by decide
  rw [h, wordI_and]
  simp only [regBits_and_zero, regBits_zero_and]
  rw [show op &&& 0xFF = op from BitVec.and_allOnes, show i &&& (0 : BitVec 16) = 0 from BitVec.and_zero]
  rfl

theorem mask_rri (op : BitVec 8) (rd ra : Reg) (i : BitVec 16) :
    wordI op rd ra i &&& 0xFF000000#32 = wordI op 0 0 0 := by
  have h : (0xFF000000#32 : CmdWord) = wordI 0xFF 0 0 0 := by decide
  rw [h, wordI_and]
  simp only [regBits_and_zero]
  rw [show op &&& 0xFF = op from BitVec.and_allOnes, show i &&& (0 : BitVec 16) = 0 from BitVec.and_zero]
  rfl

end Sys2Proof
end

