-- ==== Sys2Proof/Laws/Memory.lean ====
section
/-! SUPPORT. The laws of BUF: read after write, and that every operation keeps the canonical form. -/

namespace Sys2Proof.Machine

/-! ### One byte -/

theorem Memory.read_write_self (m : Memory) (a : Nat) (b : Byte) : (m.write a b).read a = some b := by
  induction m with
  | nil => simp [Memory.write, Memory.read]
  | cons c m ih =>
    obtain ⟨c, x⟩ := c
    simp only [Memory.write]
    split
    · simp [Memory.read]
    · split
      · simp [Memory.read]
      · rename_i h
        simp [Memory.read, h, ih]

theorem Memory.read_write_other (m : Memory) {a a' : Nat} (h : a' ≠ a) (b : Byte) :
    (m.write a b).read a' = m.read a' := by
  induction m with
  | nil => simp [Memory.write, Memory.read, h]
  | cons c m ih =>
    obtain ⟨c, x⟩ := c
    simp only [Memory.write]
    split
    · simp [Memory.read, h]
    · split
      · rename_i he
        subst he
        simp [Memory.read, h]
      · simp only [Memory.read, ih]

/-- Every address a write lists was listed before or is the one written. -/
theorem Memory.mem_write {m : Memory} {a : Nat} {b : Byte} {c : Host.Cell} (h : c ∈ m.write a b) : c ∈ m ∨ c = (a, b) := by
  induction m with
  | nil => exact .inr (by simpa [Memory.write] using h)
  | cons d m ih =>
    obtain ⟨d, x⟩ := d
    simp only [Memory.write] at h
    split at h
    · simp only [List.mem_cons] at h ⊢; tauto
    · split at h
      · simp only [List.mem_cons] at h ⊢; tauto
      · simp only [List.mem_cons] at h ⊢
        rcases h with h | h
        · exact .inl (.inl h)
        · rcases ih h with h | h
          · exact .inl (.inr h)
          · exact .inr h

/-- A write keeps the canonical form. -/
theorem Memory.write_wf {m : Memory} (hm : m.wf) {a : Nat} (ha : a < Config.bufBytes) (b : Byte) : (m.write a b).wf := by
  constructor
  · obtain ⟨hp, -⟩ := hm
    induction m with
    | nil => simp [Memory.write]
    | cons c m ih =>
      obtain ⟨c, x⟩ := c
      rw [List.pairwise_cons] at hp
      simp only [Memory.write]
      split
      · rename_i hac
        refine List.pairwise_cons.mpr ⟨fun d hd => ?_, List.pairwise_cons.mpr hp⟩
        rcases List.mem_cons.mp hd with rfl | hd
        · exact hac
        · exact lt_trans hac (hp.1 d hd)
      · split
        · rename_i he
          subst he
          exact List.pairwise_cons.mpr hp
        · rename_i h1 h2
          refine List.pairwise_cons.mpr ⟨fun d hd => ?_, ih hp.2⟩
          rcases Memory.mem_write hd with hd | rfl
          · exact hp.1 d hd
          · show c < a
            omega
  · intro c hc
    rcases Memory.mem_write hc with hc | rfl
    · exact hm.2 c hc
    · exact ha

theorem Memory.nil_wf : Memory.wf ([] : Memory) :=
  ⟨List.Pairwise.nil, fun _ h => absurd h List.not_mem_nil⟩

/-! ### Wrapping addresses (20_memory.md R42) -/

theorem wrapAddr_lt (addr j : Nat) : wrapAddr addr j < Config.bufBytes := Nat.mod_lt _ (by decide)

theorem wrapAddr_succ (addr j : Nat) : wrapAddr (addr + 1) j = wrapAddr addr (j + 1) := by
  unfold wrapAddr; congr 1; omega

/-- Two bytes of an access of at most 256 bytes are at different addresses. -/
theorem wrapAddr_inj {addr i j : Nat} (hi : i < 256) (hj : j < 256) (h : wrapAddr addr i = wrapAddr addr j) : i = j := by
  unfold wrapAddr Config.bufBytes at h; omega

/-! ### MemWrite -/

theorem Memory.writeBytes_wf {m : Memory} (hm : m.wf) (addr : Nat) (bs : List Byte) : (m.writeBytes addr bs).wf := by
  induction bs generalizing m addr with
  | nil => exact hm
  | cons b bs ih => exact ih (Memory.write_wf hm (wrapAddr_lt _ _) b) _

/-- A byte outside the bytes written reads as before. -/
theorem Memory.read_writeBytes_other (m : Memory) (addr : Nat) (bs : List Byte) (a : Nat)
    (h : ∀ j < bs.length, a ≠ wrapAddr addr j) : (m.writeBytes addr bs).read a = m.read a := by
  induction bs generalizing m addr with
  | nil => rfl
  | cons b bs ih =>
    simp only [Memory.writeBytes]
    rw [ih]
    · exact Memory.read_write_other m (h 0 (by simp)) b
    · intro j hj
      rw [wrapAddr_succ]
      exact h (j + 1) (by simpa using hj)

/-- Byte `j` written reads as written. -/
theorem Memory.read_writeBytes_self (m : Memory) (addr : Nat) (bs : List Byte) (hl : bs.length ≤ 256) (j : Nat)
    (hj : j < bs.length) : (m.writeBytes addr bs).read (wrapAddr addr j) = some bs[j] := by
  induction bs generalizing m addr j with
  | nil => simp at hj
  | cons b bs ih =>
    simp only [List.length_cons] at hl hj
    simp only [Memory.writeBytes]
    cases j with
    | zero =>
      rw [Memory.read_writeBytes_other]
      · exact Memory.read_write_self m _ b
      · intro k hk
        rw [wrapAddr_succ]
        exact fun hc => absurd (wrapAddr_inj (by omega) (by omega) hc) (by omega)
    | succ j =>
      rw [← wrapAddr_succ, ih _ _ (by omega) j (by omega)]
      rfl

/-! ### MemRead -/

/-- What MemRead answers when every byte has a value: those bytes, in order. -/
theorem Memory.readBytes_ok_iff (m : Memory) (addr n : Nat) (bs : List Byte) :
    m.readBytes addr n = .ok bs ↔ bs.length = n ∧ ∀ j, (hj : j < bs.length) → m.read (wrapAddr addr j) = some bs[j] := by
  induction n generalizing addr bs with
  | zero =>
    constructor
    · intro h
      cases h
      simp
    · rintro ⟨h, -⟩
      rw [List.length_eq_zero_iff.mp h]
      rfl
  | succ n ih =>
    simp only [Memory.readBytes]
    cases hr : m.read (wrapAddr addr 0) with
    | none =>
      simp only [reduceCtorEq, false_iff, not_and]
      intro hl h
      rw [h 0 (by omega)] at hr
      cases hr
    | some b =>
      constructor
      · intro h
        cases hb : m.readBytes (addr + 1) n with
        | error a => simp [hb] at h
        | ok cs =>
          simp only [hb, Except.ok.injEq] at h
          subst h
          obtain ⟨hl, hc⟩ := (ih _ _).mp hb
          refine ⟨by simp [hl], fun j hj => ?_⟩
          cases j with
          | zero => exact hr
          | succ j =>
            rw [← wrapAddr_succ]
            exact hc j (by simpa using hj)
      · rintro ⟨hl, h⟩
        cases bs with
        | nil => simp at hl
        | cons c cs =>
          have hc : m.readBytes (addr + 1) n = .ok cs :=
            (ih _ _).mpr ⟨by simpa using hl, fun j hj => by
              rw [wrapAddr_succ]; exact h (j + 1) (by simpa using hj)⟩
          have hb : b = c := by
            have := h 0 (by simp)
            rw [hr] at this
            simpa using this
          simp [hc, hb]

/-- MemRead fails exactly at an address of the access that has no value. -/
theorem Memory.readBytes_error {m : Memory} {addr n a : Nat} (h : m.readBytes addr n = .error a) :
    ∃ j < n, a = wrapAddr addr j ∧ m.read a = none := by
  induction n generalizing addr with
  | zero => cases h
  | succ n ih =>
    simp only [Memory.readBytes] at h
    cases hr : m.read (wrapAddr addr 0) with
    | none =>
      simp only [hr, Except.error.injEq] at h
      exact ⟨0, by omega, h.symm, h ▸ hr⟩
    | some b =>
      cases hb : m.readBytes (addr + 1) n with
      | error c =>
        simp only [hr, hb, Except.error.injEq] at h
        subst h
        obtain ⟨j, hj, ha, hn⟩ := ih hb
        exact ⟨j + 1, by omega, by rw [ha, wrapAddr_succ], hn⟩
      | ok cs => simp [hr, hb] at h

end Sys2Proof.Machine
end

