-- ==== Sys2Proof/Laws/State.lean ====
section
/-! SUPPORT. What each update of the state does to each field, and reads of registers after them. -/

namespace Sys2Proof.Machine

/-! ### The end of a command -/

@[simp] theorem respond_gpr (st : Status) (s : State) : (respond st s).gpr = s.gpr := rfl
@[simp] theorem respond_buf (st : Status) (s : State) : (respond st s).buf = s.buf := rfl
@[simp] theorem respond_busy (st : Status) (s : State) : (respond st s).busy = true := rfl
@[simp] theorem respond_rspPending (st : Status) (s : State) : (respond st s).rspPending = false := rfl
@[simp] theorem respond_rspStatus (st : Status) (s : State) : (respond st s).rspStatus = st := rfl
@[simp] theorem respond_hbRdata (st : Status) (s : State) : (respond st s).hbRdata = s.hbRdata := rfl
@[simp] theorem respond_inReset (st : Status) (s : State) : (respond st s).inReset = s.inReset := rfl
@[simp] theorem respond_inputs (st : Status) (s : State) : (respond st s).inputs = s.inputs := rfl
@[simp] theorem respond_freeCount (st : Status) (s : State) : (respond st s).freeCount = s.freeCount := rfl
@[simp] theorem respond_resetCount (st : Status) (s : State) : (respond st s).resetCount = s.resetCount := rfl

/-! ### Reset, the host BUF port -/

@[simp] theorem resetEdge_gpr (s : State) : (resetEdge s).gpr = Vector.ofFn fun i => Config.freeWord (s.resetCount + 1) (i.val + 3) := rfl
@[simp] theorem resetEdge_buf (s : State) : (resetEdge s).buf = [] := rfl
@[simp] theorem resetEdge_busy (s : State) : (resetEdge s).busy = false := rfl
@[simp] theorem resetEdge_rspPending (s : State) : (resetEdge s).rspPending = false := rfl
@[simp] theorem resetEdge_rspStatus (s : State) : (resetEdge s).rspStatus = s.rspStatus := rfl
@[simp] theorem resetEdge_hbRdata (s : State) : (resetEdge s).hbRdata = s.hbRdata := rfl
@[simp] theorem resetEdge_inReset (s : State) : (resetEdge s).inReset = true := rfl
@[simp] theorem resetEdge_inputs (s : State) : (resetEdge s).inputs = s.inputs := rfl
@[simp] theorem resetEdge_freeCount (s : State) : (resetEdge s).freeCount = s.freeCount := rfl
@[simp] theorem resetEdge_resetCount (s : State) : (resetEdge s).resetCount = s.resetCount + 1 := rfl

@[simp] theorem hostWrite_gpr (a d : Byte) (s : State) : (hostWrite a d s).gpr = s.gpr := rfl
@[simp] theorem hostWrite_buf (a d : Byte) (s : State) : (hostWrite a d s).buf = s.buf.write a.toNat d := rfl
@[simp] theorem hostWrite_busy (a d : Byte) (s : State) : (hostWrite a d s).busy = s.busy := rfl
@[simp] theorem hostWrite_rspPending (a d : Byte) (s : State) : (hostWrite a d s).rspPending = s.rspPending := rfl
@[simp] theorem hostWrite_rspStatus (a d : Byte) (s : State) : (hostWrite a d s).rspStatus = s.rspStatus := rfl
@[simp] theorem hostWrite_hbRdata (a d : Byte) (s : State) : (hostWrite a d s).hbRdata = Config.freeByte s.freeCount := rfl
@[simp] theorem hostWrite_inReset (a d : Byte) (s : State) : (hostWrite a d s).inReset = s.inReset := rfl
@[simp] theorem hostWrite_inputs (a d : Byte) (s : State) : (hostWrite a d s).inputs = s.inputs := rfl
@[simp] theorem hostWrite_freeCount (a d : Byte) (s : State) : (hostWrite a d s).freeCount = s.freeCount + 1 := rfl
@[simp] theorem hostWrite_resetCount (a d : Byte) (s : State) : (hostWrite a d s).resetCount = s.resetCount := rfl

@[simp] theorem withFetchWord_gpr (nbits w : Nat) (s : State) : (s.withFetchWord nbits w).gpr = s.gpr := rfl
@[simp] theorem withFetchWord_buf (nbits w : Nat) (s : State) : (s.withFetchWord nbits w).buf = s.buf := rfl
@[simp] theorem withFetchWord_busy (nbits w : Nat) (s : State) : (s.withFetchWord nbits w).busy = false := rfl
@[simp] theorem withFetchWord_rspPending (nbits w : Nat) (s : State) : (s.withFetchWord nbits w).rspPending = false := rfl
@[simp] theorem withFetchWord_rspStatus (nbits w : Nat) (s : State) : (s.withFetchWord nbits w).rspStatus = s.rspStatus := rfl
@[simp] theorem withFetchWord_hbRdata (nbits w : Nat) (s : State) : (s.withFetchWord nbits w).hbRdata = s.hbRdata := rfl
@[simp] theorem withFetchWord_inReset (nbits w : Nat) (s : State) : (s.withFetchWord nbits w).inReset = false := rfl
@[simp] theorem withFetchWord_inputs (nbits w : Nat) (s : State) : (s.withFetchWord nbits w).inputs = presentCommand (BitVec.ofNat 32 (w % 2 ^ nbits)) :: s.inputs := rfl
@[simp] theorem withFetchWord_freeCount (nbits w : Nat) (s : State) : (s.withFetchWord nbits w).freeCount = s.freeCount := rfl
@[simp] theorem withFetchWord_resetCount (nbits w : Nat) (s : State) : (s.withFetchWord nbits w).resetCount = s.resetCount := rfl

/-! ### Register writes touch only the general registers -/

@[simp] theorem writeReg_buf (r : Reg) (v : Word) (s : State) : (writeReg s r v).buf = s.buf := by
  unfold writeReg; split <;> rfl

@[simp] theorem writeReg_busy (r : Reg) (v : Word) (s : State) : (writeReg s r v).busy = s.busy := by
  unfold writeReg; split <;> rfl

@[simp] theorem writeReg_rspPending (r : Reg) (v : Word) (s : State) : (writeReg s r v).rspPending = s.rspPending := by
  unfold writeReg; split <;> rfl

@[simp] theorem writeReg_rspStatus (r : Reg) (v : Word) (s : State) : (writeReg s r v).rspStatus = s.rspStatus := by
  unfold writeReg; split <;> rfl

@[simp] theorem writeReg_hbRdata (r : Reg) (v : Word) (s : State) : (writeReg s r v).hbRdata = s.hbRdata := by
  unfold writeReg; split <;> rfl

@[simp] theorem writeReg_inReset (r : Reg) (v : Word) (s : State) : (writeReg s r v).inReset = s.inReset := by
  unfold writeReg; split <;> rfl

@[simp] theorem writeReg_inputs (r : Reg) (v : Word) (s : State) : (writeReg s r v).inputs = s.inputs := by
  unfold writeReg; split <;> rfl

@[simp] theorem writeReg_freeCount (r : Reg) (v : Word) (s : State) : (writeReg s r v).freeCount = s.freeCount := by
  unfold writeReg; split <;> rfl

@[simp] theorem writeReg_resetCount (r : Reg) (v : Word) (s : State) : (writeReg s r v).resetCount = s.resetCount := by
  unfold writeReg; split <;> rfl

/-! ### A host read touches only `hb_rdata` -/

@[simp] theorem hostRead_gpr (a : Byte) (s : State) : (hostRead a s).gpr = s.gpr := rfl
@[simp] theorem hostRead_buf (a : Byte) (s : State) : (hostRead a s).buf = s.buf := rfl
@[simp] theorem hostRead_busy (a : Byte) (s : State) : (hostRead a s).busy = s.busy := rfl
@[simp] theorem hostRead_rspPending (a : Byte) (s : State) : (hostRead a s).rspPending = s.rspPending := rfl
@[simp] theorem hostRead_rspStatus (a : Byte) (s : State) : (hostRead a s).rspStatus = s.rspStatus := rfl
@[simp] theorem hostRead_inReset (a : Byte) (s : State) : (hostRead a s).inReset = s.inReset := rfl
@[simp] theorem hostRead_inputs (a : Byte) (s : State) : (hostRead a s).inputs = s.inputs := rfl
@[simp] theorem hostRead_freeCount (a : Byte) (s : State) : (hostRead a s).freeCount = s.freeCount := rfl
@[simp] theorem hostRead_resetCount (a : Byte) (s : State) : (hostRead a s).resetCount = s.resetCount := rfl
@[simp] theorem hostRead_hbRdata (a : Byte) (s : State) : (hostRead a s).hbRdata = hostByte s a := rfl

/-- The host sees a byte that something has written. -/
theorem hostByte_written {s : State} {a : Byte} {b : Byte} (h : s.buf.read a.toNat = some b) : hostByte s a = b := by
  simp [hostByte, h]

/-- The host sees the unspecified byte of the latest reset where nothing has written. -/
theorem hostByte_unwritten {s : State} {a : Byte} (h : s.buf.read a.toNat = none) :
    hostByte s a = Config.resetByte s.resetCount a.toNat := by
  simp [hostByte, h]

/-- Repeating a host read with nothing between returns the same byte (20_memory.md R50). -/
theorem hostByte_hostRead (s : State) (a b : Byte) : hostByte (hostRead b s) a = hostByte s a := rfl

@[simp] theorem hostAccess_gpr (e : Edge) (s : State) : (hostAccess e s).gpr = s.gpr := by
  unfold hostAccess; split <;> (try split) <;> simp

@[simp] theorem hostAccess_busy (e : Edge) (s : State) : (hostAccess e s).busy = s.busy := by
  unfold hostAccess; split <;> (try split) <;> simp

@[simp] theorem hostAccess_rspPending (e : Edge) (s : State) : (hostAccess e s).rspPending = s.rspPending := by
  unfold hostAccess; split <;> (try split) <;> simp

@[simp] theorem hostAccess_rspStatus (e : Edge) (s : State) : (hostAccess e s).rspStatus = s.rspStatus := by
  unfold hostAccess; split <;> (try split) <;> simp

@[simp] theorem hostAccess_inReset (e : Edge) (s : State) : (hostAccess e s).inReset = s.inReset := by
  unfold hostAccess; split <;> (try split) <;> simp

@[simp] theorem hostAccess_inputs (e : Edge) (s : State) : (hostAccess e s).inputs = s.inputs := by
  unfold hostAccess; split <;> (try split) <;> simp

@[simp] theorem hostAccess_resetCount (e : Edge) (s : State) : (hostAccess e s).resetCount = s.resetCount := by
  unfold hostAccess; split <;> (try split) <;> simp

@[simp] theorem busyEdge_gpr (e : Edge) (s : State) : (busyEdge e s).gpr = s.gpr := by
  unfold busyEdge; split <;> split <;> rfl

@[simp] theorem busyEdge_buf (e : Edge) (s : State) : (busyEdge e s).buf = s.buf := by
  unfold busyEdge; split <;> split <;> rfl

@[simp] theorem busyEdge_rspStatus (e : Edge) (s : State) : (busyEdge e s).rspStatus = s.rspStatus := by
  unfold busyEdge; split <;> split <;> rfl

@[simp] theorem busyEdge_hbRdata (e : Edge) (s : State) : (busyEdge e s).hbRdata = s.hbRdata := by
  unfold busyEdge; split <;> split <;> rfl

@[simp] theorem busyEdge_inReset (e : Edge) (s : State) : (busyEdge e s).inReset = s.inReset := by
  unfold busyEdge; split <;> split <;> rfl

@[simp] theorem busyEdge_inputs (e : Edge) (s : State) : (busyEdge e s).inputs = s.inputs := by
  unfold busyEdge; split <;> split <;> rfl

@[simp] theorem busyEdge_freeCount (e : Edge) (s : State) : (busyEdge e s).freeCount = s.freeCount := by
  unfold busyEdge; split <;> split <;> rfl

@[simp] theorem busyEdge_resetCount (e : Edge) (s : State) : (busyEdge e s).resetCount = s.resetCount := by
  unfold busyEdge; split <;> split <;> rfl

/-! ### Reads of registers -/

/-- A read sees the general registers alone. -/
theorem readReg_congr {s t : State} (h : t.gpr = s.gpr) (r : Reg) : readReg t r = readReg s r := by
  unfold readReg; split
  · rfl
  · simp only [h]

@[simp] theorem readReg_respond (st : Status) (s : State) (r : Reg) : readReg (respond st s) r = readReg s r := rfl

@[simp] theorem readReg_hostAccess (e : Edge) (s : State) (r : Reg) : readReg (hostAccess e s) r = readReg s r :=
  readReg_congr (by simp) r

@[simp] theorem readReg_busyEdge (e : Edge) (s : State) (r : Reg) : readReg (busyEdge e s) r = readReg s r :=
  readReg_congr (by simp) r

/-- x0 to x2 read as their constants in every state (10_state.md R21). -/
theorem readReg_constant (s : State) {r : Reg} (h : r.val < 3) : readReg s r = constantOf r.val := by
  simp [readReg, h]

@[simp] theorem readReg_zero (s : State) : readReg s 0 = 0 := rfl
@[simp] theorem readReg_one (s : State) : readReg s 1 = 1 := rfl
@[simp] theorem readReg_max (s : State) : readReg s 2 = BitVec.allOnes 256 := rfl

/-- Read after write: the destination, if it is a general register, holds the value written. -/
theorem readReg_writeReg_self (s : State) {r : Reg} (h : 3 ≤ r.val) (v : Word) : readReg (writeReg s r v) r = v := by
  have h' : ¬ r.val < 3 := by omega
  simp [readReg, writeReg, h']

/-- A write leaves every other register alone. -/
theorem readReg_writeReg_other (s : State) {r q : Reg} (h : q ≠ r) (v : Word) :
    readReg (writeReg s r v) q = readReg s q := by
  unfold writeReg
  split
  · rfl
  · rename_i hr
    unfold readReg
    split
    · rfl
    · rename_i hq
      have : r.val - 3 ≠ q.val - 3 := fun hc => h (Fin.ext (by omega))
      simp [this]

/-- A write to a hard-wired register writes nothing (10_state.md R21). -/
theorem writeReg_constant (s : State) {r : Reg} (h : r.val < 3) (v : Word) : writeReg s r v = s := by
  simp [writeReg, h]

end Sys2Proof.Machine
end

