-- ==== Sys2Proof/Laws/Ops.lean ====
section
/-! SUPPORT. One lemma per shared operation: everything it can answer. -/

namespace Sys2Proof.Machine

theorem isConstant_iff (r : Reg) : isConstant r = true ↔ r.val < 3 := by simp [isConstant]

theorem isConstant_eq_false_iff (r : Reg) : isConstant r = false ↔ 3 ≤ r.val := by simp [isConstant]

/-- Every way a command of this core can end, by what it writes: nothing (an error), one register, BUF bytes, both; or a read of
a BUF byte that has no value. `dest`, `stores` and `loads` are the command's `dest?`, `storesBuf` and `loadsBuf`. -/
inductive Ending (dest : Option Reg) (stores loads : Bool) (s : State) : Result → Prop where
  | error (e : ErrorKind) : Ending dest stores loads s (.next (respond (.error e) s))
  | reg (rd : Reg) (v : Word) (hd : dest = some rd) (hg : 3 ≤ rd.val) (hs : stores = false) :
      Ending dest stores loads s (.next (respond .ok (writeReg s rd v)))
  | store (addr : Nat) (bs : List Byte) (hd : dest = none) (hs : stores = true) :
      Ending dest stores loads s (.next (respond .ok { s with buf := s.buf.writeBytes addr bs }))
  | storeReg (addr : Nat) (bs : List Byte) (rd : Reg) (v : Word) (hd : dest = some rd) (hg : 3 ≤ rd.val)
      (hs : stores = true) :
      Ending dest stores loads s (.next (respond .ok (writeReg { s with buf := s.buf.writeBytes addr bs } rd v)))
  | fault (a : Nat) (ha : s.buf.read a = none) (hl : loads = true) :
      Ending dest stores loads s (.fault (.bufByteNeverWritten a))

/-- The destination check: ImmutableConstantViolation for x0 to x2, else what follows. -/
theorem guardDest_ending {rd : Reg} {stores loads : Bool} {s : State} {o : Result}
    (h : 3 ≤ rd.val → Ending (some rd) stores loads s o) : Ending (some rd) stores loads s (guardDest rd s o) := by
  unfold guardDest
  split
  · exact .error _
  · rename_i hc
    exact h ((isConstant_eq_false_iff rd).mp (by simpa using hc))

theorem guardDest_constant {rd : Reg} (h : rd.val < 3) (s : State) (o : Result) :
    guardDest rd s o = .next (respond (.error .immutableConstantViolation) s) := by
  simp [guardDest, raise, (isConstant_iff rd).mpr h]

theorem guardDest_general {rd : Reg} (h : 3 ≤ rd.val) (s : State) (o : Result) : guardDest rd s o = o := by
  simp [guardDest, (isConstant_eq_false_iff rd).mpr h]

/-- A register-writing command ends with an error or writes its destination. -/
theorem finishReg_ending {loads : Bool} (rd : Reg) (r : Except ErrorKind Word) (s : State) :
    Ending (some rd) false loads s (finishReg rd r s) := by
  apply guardDest_ending
  intro hg
  cases r with
  | error e => exact .error e
  | ok v => exact .reg rd v rfl hg rfl

theorem finishReg_constant {rd : Reg} (h : rd.val < 3) (r : Except ErrorKind Word) (s : State) :
    finishReg rd r s = .next (respond (.error .immutableConstantViolation) s) := guardDest_constant h s _

theorem finishReg_error {rd : Reg} (h : 3 ≤ rd.val) (e : ErrorKind) (s : State) :
    finishReg rd (.error e) s = .next (respond (.error e) s) := guardDest_general h s _

theorem finishReg_ok {rd : Reg} (h : 3 ≤ rd.val) (v : Word) (s : State) :
    finishReg rd (.ok v) s = .next (respond .ok (writeReg s rd v)) := guardDest_general h s _

end Sys2Proof.Machine
end

