-- ==== Sys2Proof/Laws/Exec.lean ====
section
/-! SUPPORT. What a command can do, said once for all 76. -/

namespace Sys2Proof.Machine

theorem loadOp_ending (n : Nat) (dec : List Byte → Nat) (rd ra rb : Reg) (s : State) :
    Ending (some rd) false true s (loadOp n dec rd ra rb s) := by
  apply guardDest_ending
  intro hg
  split
  · exact .error _
  · split
    · rename_i a h
      obtain ⟨_, _, _, hn⟩ := Memory.readBytes_error h
      exact .fault a hn rfl
    · exact .reg rd _ rfl hg rfl

theorem storeOp_ending (n : Nat) (enc : BitVec n → List Byte) (rs ra rb : Reg) (s : State) :
    Ending none true false s (storeOp n enc rs ra rb s) := by
  unfold storeOp
  split
  · exact .error _
  · exact .store _ _ rfl rfl

theorem parseOp_ending (n : Nat) (rd ra rb : Reg) (radix : Byte) (s : State) :
    Ending (some rd) false true s (parseOp n rd ra rb radix s) := by
  apply guardDest_ending
  intro hg
  split
  · exact .error _
  · split
    · exact .error _
    · split
      · rename_i a h
        obtain ⟨_, _, _, hn⟩ := Memory.readBytes_error h
        exact .fault a hn rfl
      · split
        · exact .error _
        · exact .reg rd _ rfl hg rfl

theorem fmtOp_ending (n : Nat) (rd ra rb : Reg) (radix : Byte) (s : State) :
    Ending (some rd) true false s (fmtOp n rd ra rb radix s) := by
  apply guardDest_ending
  intro hg
  split
  · exact .error _
  · exact .storeReg _ _ rd _ rfl hg rfl

theorem guardLimbIndex_ending {dest : Option Reg} {stores loads : Bool} {k : Byte} {s : State} {o : Result}
    (h : Ending dest stores loads s o) : Ending dest stores loads s (guardLimbIndex k s o) := by
  unfold guardLimbIndex
  split
  · exact h
  · exact .error _

/-! The shapes of Machine/Shapes.lean write their destination or raise an error: nothing else. -/

theorem unaryOp_ending (n : Nat) (f : BitVec n → BitVec n) (rd ra : Reg) (s : State) :
    Ending (some rd) false false s (unaryOp n f rd ra s) := finishReg_ending ..

theorem binaryOp_ending (n : Nat) (f : BitVec n → BitVec n → BitVec n) (rd ra rb : Reg) (s : State) :
    Ending (some rd) false false s (binaryOp n f rd ra rb s) := finishReg_ending ..

theorem divideOp_ending (n : Nat) (f : BitVec n → BitVec n → BitVec n) (rd ra rb : Reg) (s : State) :
    Ending (some rd) false false s (divideOp n f rd ra rb s) := finishReg_ending ..

theorem signedAmountOp_ending (n : Nat) (f : BitVec n → Int → BitVec n) (rd ra rb : Reg) (s : State) :
    Ending (some rd) false false s (signedAmountOp n f rd ra rb s) := finishReg_ending ..

theorem immAmountOp_ending (n : Nat) (f : BitVec n → Int → BitVec n) (rd ra : Reg) (imm16 : BitVec 16) (s : State) :
    Ending (some rd) false false s (immAmountOp n f rd ra imm16 s) := finishReg_ending ..

theorem countOp_ending (n : Nat) (count : BitVec n → Nat) (rd ra : Reg) (s : State) :
    Ending (some rd) false false s (countOp n count rd ra s) := finishReg_ending ..

theorem compareOp_ending (n : Nat) (rel : BitVec n → BitVec n → Bool) (rd ra rb : Reg) (s : State) :
    Ending (some rd) false false s (compareOp n rel rd ra rb s) := finishReg_ending ..

theorem divmodOp_ending (rd : Reg) (n d : BitVec 128) (s : State) :
    Ending (some rd) false false s (divmodOp rd n d s) := finishReg_ending ..

theorem fromOp_ending (n : Nat) (rd ra : Reg) (t : Byte) (s : State) :
    Ending (some rd) false false s (fromOp n rd ra t s) := finishReg_ending ..

theorem toOp_ending (n : Nat) (rd ra : Reg) (t : Byte) (s : State) :
    Ending (some rd) false false s (toOp n rd ra t s) := finishReg_ending ..

/-- Every way a command can end. -/
theorem exec_ending (i : Instr) (s : State) : Ending i.dest? i.storesBuf i.loadsBuf s (exec i s) := by
  cases i
  all_goals
    simp only [
    exec, Instr.dest?, Instr.storesBuf, Instr.loadsBuf, execAdc64, execSbb64, execWmul64, execMac64, execDivmod128,
    execDivmod128x64, execLdi, execLimbget, execLimbset, execAdd128, execSub128, execMul128, execDiv128, execRem128,
    execMuldiv128, execPow128, execSqrt128, execAnd128, execOr128, execXor128, execNot128, execShl128, execShr128,
    execShli128, execShri128, execClz128, execCtz128, execCmpeq128, execCmplt128, execCmple128, execCmpgt128,
    execCmpge128, execInc128, execDec128, execSet128, execFrom128, execTo128, execBldle128, execBldbe128,
    execBstle128, execBstbe128, execParse128, execFmt128, execAdd256, execSub256, execMul256, execDiv256, execRem256,
    execPow256, execSqrt256, execAnd256, execOr256, execXor256, execNot256, execShl256, execShr256, execShli256,
    execShri256, execClz256, execCtz256, execCmpeq256, execCmplt256, execCmple256, execCmpgt256, execCmpge256,
    execInc256, execDec256, execSet256, execFrom256, execTo256, execBldle256, execBldbe256, execBstle256,
    execBstbe256, execParse256, execFmt256]
    first
    | exact finishReg_ending ..
    | exact unaryOp_ending ..
    | exact binaryOp_ending ..
    | exact divideOp_ending ..
    | exact signedAmountOp_ending ..
    | exact immAmountOp_ending ..
    | exact countOp_ending ..
    | exact compareOp_ending ..
    | exact divmodOp_ending ..
    | exact fromOp_ending ..
    | exact toOp_ending ..
    | exact loadOp_ending ..
    | exact storeOp_ending ..
    | exact parseOp_ending ..
    | exact fmtOp_ending ..
    | exact guardLimbIndex_ending (finishReg_ending ..)

/-- A command keeps BUF in canonical form. -/
theorem exec_wf {i : Instr} {s t : State} (h : exec i s = .next t) (hw : s.buf.wf) : t.buf.wf := by
  have he := exec_ending i s
  rw [h] at he
  cases he
  case error => exact hw
  case reg => simpa using hw
  case store addr bs _ _ => exact Memory.writeBytes_wf hw addr bs
  case storeReg addr bs rd v _ _ _ =>
    rw [respond_buf, writeReg_buf]
    exact Memory.writeBytes_wf hw addr bs

end Sys2Proof.Machine
end

