-- ==== Sys2Proof/Laws/Numeric.lean ====
section
/-! SUPPORT. The integer functions meet the mathematics the rules name. -/

namespace Sys2Proof.Machine

/-! ### Powers (41_arith.md R132) -/

/-- The loop computes `acc * b^e mod m`, if `e` has at most `fuel` bits. -/
theorem powModLoop_eq (m : Nat) : ∀ fuel b e acc, e < 2 ^ fuel →
    powModLoop m fuel b e acc % m = acc * b ^ e % m := by
  intro fuel
  induction fuel with
  | zero =>
    intro b e acc he
    have : e = 0 := by simpa using he
    subst this
    simp [powModLoop]
  | succ fuel ih =>
    intro b e acc he
    have h2 : e / 2 < 2 ^ fuel := by rw [pow_succ] at he; omega
    simp only [powModLoop]
    rw [ih _ _ _ h2]
    have hb : (b * b % m) ^ (e / 2) ≡ b ^ (2 * (e / 2)) [MOD m] := by
      have := (Nat.mod_modEq (b * b) m).pow (e / 2)
      rwa [← pow_two, ← pow_mul, pow_two] at this
    split
    · rename_i ho
      have he' : e = 2 * (e / 2) + 1 := by omega
      have hacc : acc * b % m ≡ acc * b [MOD m] := Nat.mod_modEq _ _
      have := hacc.mul hb
      rw [mul_assoc, ← pow_succ', ← he'] at this
      exact this
    · rename_i ho
      have he' : e = 2 * (e / 2) := by omega
      have := (Nat.ModEq.refl acc).mul hb
      rw [← he'] at this
      exact this

/-- The loop stays below the modulus. -/
theorem powModLoop_lt {m : Nat} (hm : 0 < m) : ∀ fuel b e acc, acc < m → powModLoop m fuel b e acc < m := by
  intro fuel
  induction fuel with
  | zero => intro b e acc h; exact h
  | succ fuel ih =>
    intro b e acc h
    simp only [powModLoop]
    apply ih
    split
    · exact Nat.mod_lt _ hm
    · exact h

/-- Square and multiply is the power modulo `m`. -/
theorem powMod_eq {m : Nat} (hm : 0 < m) (a : Nat) {e : Nat} (he : e < 2 ^ 64) : powMod m a e = a ^ e % m := by
  have hlt : powMod m a e < m := powModLoop_lt hm _ _ _ _ (Nat.mod_lt _ hm)
  have := powModLoop_eq m 64 a e (1 % m) he
  rw [← Nat.mod_eq_of_lt hlt]
  unfold powMod
  rw [this, Nat.mod_mul_mod, one_mul]

/-! ### Square roots (41_arith.md R135, R136) -/

/-- From `r² ≤ a < (r + 2^k)²`, the loop ends at the floor square root. -/
theorem sqrtLoop_spec (a : Nat) : ∀ k r, r ^ 2 ≤ a → a < (r + 2 ^ k) ^ 2 →
    (sqrtLoop a k r) ^ 2 ≤ a ∧ a < (sqrtLoop a k r + 1) ^ 2 := by
  intro k
  induction k with
  | zero => intro r h1 h2; exact ⟨h1, by simpa [sqrtLoop] using h2⟩
  | succ k ih =>
    intro r h1 h2
    simp only [sqrtLoop]
    split
    · rename_i h
      refine ih _ h ?_
      have : r + 2 ^ k + 2 ^ k = r + 2 ^ (k + 1) := by rw [pow_succ]; omega
      rwa [this]
    · rename_i h
      exact ih _ h1 (by omega)

/-- `isqrt n a` is the floor square root of every `a < 2^n`, `n` even. -/
theorem isqrt_spec {n a : Nat} (hn : n = 2 * (n / 2)) (ha : a < 2 ^ n) : (isqrt n a) ^ 2 ≤ a ∧ a < (isqrt n a + 1) ^ 2 := by
  refine sqrtLoop_spec a (n / 2) 0 (Nat.zero_le a) ?_
  rw [zero_add, ← pow_mul, mul_comm, ← hn]
  exact ha

/-! ### Bit lengths and zero counts (00_scope.md R9; 42_bitwise_shift_compare.md R178 to R181) -/

theorem bitlen_zero : bitlen 0 = 0 := rfl

/-- `bitlen` brackets a positive number between powers of two. -/
theorem bitlen_spec {v : Nat} (h : v ≠ 0) : 2 ^ (bitlen v - 1) ≤ v ∧ v < 2 ^ bitlen v := by
  simp only [bitlen, h, if_false, Nat.add_sub_cancel]
  exact ⟨Nat.log2_self_le h, Nat.lt_log2_self⟩

theorem bitlen_le {v n : Nat} (h : v < 2 ^ n) : bitlen v ≤ n := by
  by_cases hv : v = 0
  · subst hv; exact Nat.zero_le n
  · have := (bitlen_spec hv).1
    have h2 : bitlen v - 1 < n := (Nat.pow_lt_pow_iff_right (by decide)).mp (lt_of_le_of_lt this h)
    omega

/-- `ctz` of a value with a set bit: bit `ctz a` is set and every lower bit is clear. -/
theorem ctz_spec {n : Nat} {a : BitVec n} (h : a ≠ 0) :
    ctz a < n ∧ a.getLsbD (ctz a) = true ∧ ∀ k < ctz a, a.getLsbD k = false := by
  unfold ctz
  cases hf : (List.range n).find? fun k => a.getLsbD k with
  | none =>
    exfalso
    apply h
    apply BitVec.eq_of_getLsbD_eq
    intro i hi
    have := List.find?_eq_none.mp hf i (List.mem_range.mpr hi)
    simpa using this
  | some c =>
    rw [List.find?_range_eq_some] at hf
    simp only [Option.getD_some]
    refine ⟨by simpa using hf.2.1, by simpa using hf.1, fun k hk => ?_⟩
    have := hf.2.2 k hk
    simpa using this

theorem ctz_zero (n : Nat) : ctz (0 : BitVec n) = n := by
  unfold ctz
  have : (List.range n).find? (fun k => (0 : BitVec n).getLsbD k) = none := by
    rw [List.find?_eq_none]; intro x _; simp
  rw [this]; rfl

/-! ### Digits (44_serialize.md R243) -/

/-- With fuel enough, `digitsLE` is the standard list of digits. -/
theorem digitsLE_eq {radix : Nat} (hr : 1 < radix) : ∀ fuel v, v < 2 ^ fuel → digitsLE radix fuel v = Nat.digits radix v := by
  intro fuel
  induction fuel with
  | zero =>
    intro v hv
    have : v = 0 := by simpa using hv
    subst this
    simp [digitsLE]
  | succ fuel ih =>
    intro v hv
    simp only [digitsLE]
    split
    · rename_i h; subst h; simp
    · rename_i h
      rw [Nat.digits_def' hr (Nat.pos_of_ne_zero h), ih]
      rw [pow_succ] at hv
      have : v / radix ≤ v / 2 := Nat.div_le_div_left hr (by decide)
      omega

end Sys2Proof.Machine
end

