-- ==== Sys2Proof/Laws/PerInstr.lean ====
section
/-! SUPPORT. Per command: its word selects its row of the opcode map (30_encoding.md R77, R80). -/

namespace Sys2Proof.Laws

/-- The word of a well-formed command selects the row of its opcode, whose mask and match it meets (R80). -/
def SelectsRow.Statement (i : Instr) : Prop :=
  i.wellFormed = true → ∃ row, rowFor? (opOf (encode i)) = some row ∧ encode i &&& row.mask = row.pattern

/-- How each lemma below goes: the opcode of the word, the row it finds, the mask of that row. -/
theorem selectsRow_intro {i : Instr} {op : BitVec 8} {row : Row} (hop : opOf (encode i) = op) (hrow : rowFor? op = some row)
    (hmask : i.wellFormed = true → encode i &&& row.mask = row.pattern) : SelectsRow.Statement i :=
  fun h => ⟨row, by rw [hop]; exact hrow, hmask h⟩

theorem SelectsRow.adc64 (rd : Reg) (ra : Reg) (rb : Reg) (rc : Reg) : SelectsRow.Statement (.adc64 rd ra rb rc) :=
  selectsRow_intro (opOf_wordR _ _ _ _ _ _) rfl (fun _ => mask_rrrr _ _ _ _ _)

theorem SelectsRow.sbb64 (rd : Reg) (ra : Reg) (rb : Reg) (rc : Reg) : SelectsRow.Statement (.sbb64 rd ra rb rc) :=
  selectsRow_intro (opOf_wordR _ _ _ _ _ _) rfl (fun _ => mask_rrrr _ _ _ _ _)

theorem SelectsRow.wmul64 (rd : Reg) (ra : Reg) (rb : Reg) : SelectsRow.Statement (.wmul64 rd ra rb) :=
  selectsRow_intro (opOf_wordR _ _ _ _ _ _) rfl (fun _ => mask_rrr _ _ _ _)

theorem SelectsRow.mac64 (rd : Reg) (ra : Reg) (rb : Reg) (rc : Reg) : SelectsRow.Statement (.mac64 rd ra rb rc) :=
  selectsRow_intro (opOf_wordR _ _ _ _ _ _) rfl (fun _ => mask_rrrr _ _ _ _ _)

theorem SelectsRow.divmod128 (rd : Reg) (ra : Reg) (rb : Reg) : SelectsRow.Statement (.divmod128 rd ra rb) :=
  selectsRow_intro (opOf_wordR _ _ _ _ _ _) rfl (fun _ => mask_rrr _ _ _ _)

theorem SelectsRow.divmod128x64 (rd : Reg) (ra : Reg) (rb : Reg) : SelectsRow.Statement (.divmod128x64 rd ra rb) :=
  selectsRow_intro (opOf_wordR _ _ _ _ _ _) rfl (fun _ => mask_rrr _ _ _ _)

theorem SelectsRow.ldi (rd : Reg) (imm16 : BitVec 16) : SelectsRow.Statement (.ldi rd imm16) :=
  selectsRow_intro (opOf_wordI _ _ _ _) rfl (fun _ => mask_ri _ _ _)

theorem SelectsRow.limbget (rd : Reg) (ra : Reg) (k : Byte) : SelectsRow.Statement (.limbget rd ra k) :=
  selectsRow_intro (opOf_wordR _ _ _ _ _ _) rfl (fun h => mask_rrk _ _ _ h)

theorem SelectsRow.limbset (rd : Reg) (ra : Reg) (rb : Reg) (k : Byte) : SelectsRow.Statement (.limbset rd ra rb k) :=
  selectsRow_intro (opOf_wordR _ _ _ _ _ _) rfl (fun h => mask_rrrk _ _ _ _ h)

theorem SelectsRow.add128 (rd : Reg) (ra : Reg) (rb : Reg) : SelectsRow.Statement (.add128 rd ra rb) :=
  selectsRow_intro (opOf_wordR _ _ _ _ _ _) rfl (fun _ => mask_rrr _ _ _ _)

theorem SelectsRow.sub128 (rd : Reg) (ra : Reg) (rb : Reg) : SelectsRow.Statement (.sub128 rd ra rb) :=
  selectsRow_intro (opOf_wordR _ _ _ _ _ _) rfl (fun _ => mask_rrr _ _ _ _)

theorem SelectsRow.mul128 (rd : Reg) (ra : Reg) (rb : Reg) : SelectsRow.Statement (.mul128 rd ra rb) :=
  selectsRow_intro (opOf_wordR _ _ _ _ _ _) rfl (fun _ => mask_rrr _ _ _ _)

theorem SelectsRow.div128 (rd : Reg) (ra : Reg) (rb : Reg) : SelectsRow.Statement (.div128 rd ra rb) :=
  selectsRow_intro (opOf_wordR _ _ _ _ _ _) rfl (fun _ => mask_rrr _ _ _ _)

theorem SelectsRow.rem128 (rd : Reg) (ra : Reg) (rb : Reg) : SelectsRow.Statement (.rem128 rd ra rb) :=
  selectsRow_intro (opOf_wordR _ _ _ _ _ _) rfl (fun _ => mask_rrr _ _ _ _)

theorem SelectsRow.muldiv128 (rd : Reg) (ra : Reg) (rb : Reg) (rc : Reg) : SelectsRow.Statement (.muldiv128 rd ra rb rc) :=
  selectsRow_intro (opOf_wordR _ _ _ _ _ _) rfl (fun _ => mask_rrrr _ _ _ _ _)

theorem SelectsRow.pow128 (rd : Reg) (ra : Reg) (rb : Reg) : SelectsRow.Statement (.pow128 rd ra rb) :=
  selectsRow_intro (opOf_wordR _ _ _ _ _ _) rfl (fun _ => mask_rrr _ _ _ _)

theorem SelectsRow.sqrt128 (rd : Reg) (ra : Reg) : SelectsRow.Statement (.sqrt128 rd ra) :=
  selectsRow_intro (opOf_wordR _ _ _ _ _ _) rfl (fun _ => mask_rr _ _ _)

theorem SelectsRow.and128 (rd : Reg) (ra : Reg) (rb : Reg) : SelectsRow.Statement (.and128 rd ra rb) :=
  selectsRow_intro (opOf_wordR _ _ _ _ _ _) rfl (fun _ => mask_rrr _ _ _ _)

theorem SelectsRow.or128 (rd : Reg) (ra : Reg) (rb : Reg) : SelectsRow.Statement (.or128 rd ra rb) :=
  selectsRow_intro (opOf_wordR _ _ _ _ _ _) rfl (fun _ => mask_rrr _ _ _ _)

theorem SelectsRow.xor128 (rd : Reg) (ra : Reg) (rb : Reg) : SelectsRow.Statement (.xor128 rd ra rb) :=
  selectsRow_intro (opOf_wordR _ _ _ _ _ _) rfl (fun _ => mask_rrr _ _ _ _)

theorem SelectsRow.not128 (rd : Reg) (ra : Reg) : SelectsRow.Statement (.not128 rd ra) :=
  selectsRow_intro (opOf_wordR _ _ _ _ _ _) rfl (fun _ => mask_rr _ _ _)

theorem SelectsRow.shl128 (rd : Reg) (ra : Reg) (rb : Reg) : SelectsRow.Statement (.shl128 rd ra rb) :=
  selectsRow_intro (opOf_wordR _ _ _ _ _ _) rfl (fun _ => mask_rrr _ _ _ _)

theorem SelectsRow.shr128 (rd : Reg) (ra : Reg) (rb : Reg) : SelectsRow.Statement (.shr128 rd ra rb) :=
  selectsRow_intro (opOf_wordR _ _ _ _ _ _) rfl (fun _ => mask_rrr _ _ _ _)

theorem SelectsRow.shli128 (rd : Reg) (ra : Reg) (imm16 : BitVec 16) : SelectsRow.Statement (.shli128 rd ra imm16) :=
  selectsRow_intro (opOf_wordI _ _ _ _) rfl (fun _ => mask_rri _ _ _ _)

theorem SelectsRow.shri128 (rd : Reg) (ra : Reg) (imm16 : BitVec 16) : SelectsRow.Statement (.shri128 rd ra imm16) :=
  selectsRow_intro (opOf_wordI _ _ _ _) rfl (fun _ => mask_rri _ _ _ _)

theorem SelectsRow.clz128 (rd : Reg) (ra : Reg) : SelectsRow.Statement (.clz128 rd ra) :=
  selectsRow_intro (opOf_wordR _ _ _ _ _ _) rfl (fun _ => mask_rr _ _ _)

theorem SelectsRow.ctz128 (rd : Reg) (ra : Reg) : SelectsRow.Statement (.ctz128 rd ra) :=
  selectsRow_intro (opOf_wordR _ _ _ _ _ _) rfl (fun _ => mask_rr _ _ _)

theorem SelectsRow.cmpeq128 (rd : Reg) (ra : Reg) (rb : Reg) : SelectsRow.Statement (.cmpeq128 rd ra rb) :=
  selectsRow_intro (opOf_wordR _ _ _ _ _ _) rfl (fun _ => mask_rrr _ _ _ _)

theorem SelectsRow.cmplt128 (rd : Reg) (ra : Reg) (rb : Reg) : SelectsRow.Statement (.cmplt128 rd ra rb) :=
  selectsRow_intro (opOf_wordR _ _ _ _ _ _) rfl (fun _ => mask_rrr _ _ _ _)

theorem SelectsRow.cmple128 (rd : Reg) (ra : Reg) (rb : Reg) : SelectsRow.Statement (.cmple128 rd ra rb) :=
  selectsRow_intro (opOf_wordR _ _ _ _ _ _) rfl (fun _ => mask_rrr _ _ _ _)

theorem SelectsRow.cmpgt128 (rd : Reg) (ra : Reg) (rb : Reg) : SelectsRow.Statement (.cmpgt128 rd ra rb) :=
  selectsRow_intro (opOf_wordR _ _ _ _ _ _) rfl (fun _ => mask_rrr _ _ _ _)

theorem SelectsRow.cmpge128 (rd : Reg) (ra : Reg) (rb : Reg) : SelectsRow.Statement (.cmpge128 rd ra rb) :=
  selectsRow_intro (opOf_wordR _ _ _ _ _ _) rfl (fun _ => mask_rrr _ _ _ _)

theorem SelectsRow.inc128 (rd : Reg) : SelectsRow.Statement (.inc128 rd) :=
  selectsRow_intro (opOf_wordR _ _ _ _ _ _) rfl (fun _ => mask_r _ _)

theorem SelectsRow.dec128 (rd : Reg) : SelectsRow.Statement (.dec128 rd) :=
  selectsRow_intro (opOf_wordR _ _ _ _ _ _) rfl (fun _ => mask_r _ _)

theorem SelectsRow.set128 (rd : Reg) (ra : Reg) : SelectsRow.Statement (.set128 rd ra) :=
  selectsRow_intro (opOf_wordR _ _ _ _ _ _) rfl (fun _ => mask_rr _ _ _)

theorem SelectsRow.from128 (rd : Reg) (ra : Reg) (t : Byte) : SelectsRow.Statement (.from128 rd ra t) :=
  selectsRow_intro (opOf_wordR _ _ _ _ _ _) rfl (fun _ => mask_rrt _ _ _ _)

theorem SelectsRow.to128 (rd : Reg) (ra : Reg) (t : Byte) : SelectsRow.Statement (.to128 rd ra t) :=
  selectsRow_intro (opOf_wordR _ _ _ _ _ _) rfl (fun _ => mask_rrt _ _ _ _)

theorem SelectsRow.bldle128 (rd : Reg) (ra : Reg) (rb : Reg) : SelectsRow.Statement (.bldle128 rd ra rb) :=
  selectsRow_intro (opOf_wordR _ _ _ _ _ _) rfl (fun _ => mask_rrr _ _ _ _)

theorem SelectsRow.bldbe128 (rd : Reg) (ra : Reg) (rb : Reg) : SelectsRow.Statement (.bldbe128 rd ra rb) :=
  selectsRow_intro (opOf_wordR _ _ _ _ _ _) rfl (fun _ => mask_rrr _ _ _ _)

theorem SelectsRow.bstle128 (rs : Reg) (ra : Reg) (rb : Reg) : SelectsRow.Statement (.bstle128 rs ra rb) :=
  selectsRow_intro (opOf_wordR _ _ _ _ _ _) rfl (fun _ => mask_rrr _ _ _ _)

theorem SelectsRow.bstbe128 (rs : Reg) (ra : Reg) (rb : Reg) : SelectsRow.Statement (.bstbe128 rs ra rb) :=
  selectsRow_intro (opOf_wordR _ _ _ _ _ _) rfl (fun _ => mask_rrr _ _ _ _)

theorem SelectsRow.parse128 (rd : Reg) (ra : Reg) (rb : Reg) (radix : Byte) : SelectsRow.Statement (.parse128 rd ra rb radix) :=
  selectsRow_intro (opOf_wordR _ _ _ _ _ _) rfl (fun _ => mask_rrrx _ _ _ _ _)

theorem SelectsRow.fmt128 (rd : Reg) (ra : Reg) (rb : Reg) (radix : Byte) : SelectsRow.Statement (.fmt128 rd ra rb radix) :=
  selectsRow_intro (opOf_wordR _ _ _ _ _ _) rfl (fun _ => mask_rrrx _ _ _ _ _)

theorem SelectsRow.add256 (rd : Reg) (ra : Reg) (rb : Reg) : SelectsRow.Statement (.add256 rd ra rb) :=
  selectsRow_intro (opOf_wordR _ _ _ _ _ _) rfl (fun _ => mask_rrr _ _ _ _)

theorem SelectsRow.sub256 (rd : Reg) (ra : Reg) (rb : Reg) : SelectsRow.Statement (.sub256 rd ra rb) :=
  selectsRow_intro (opOf_wordR _ _ _ _ _ _) rfl (fun _ => mask_rrr _ _ _ _)

theorem SelectsRow.mul256 (rd : Reg) (ra : Reg) (rb : Reg) : SelectsRow.Statement (.mul256 rd ra rb) :=
  selectsRow_intro (opOf_wordR _ _ _ _ _ _) rfl (fun _ => mask_rrr _ _ _ _)

theorem SelectsRow.div256 (rd : Reg) (ra : Reg) (rb : Reg) : SelectsRow.Statement (.div256 rd ra rb) :=
  selectsRow_intro (opOf_wordR _ _ _ _ _ _) rfl (fun _ => mask_rrr _ _ _ _)

theorem SelectsRow.rem256 (rd : Reg) (ra : Reg) (rb : Reg) : SelectsRow.Statement (.rem256 rd ra rb) :=
  selectsRow_intro (opOf_wordR _ _ _ _ _ _) rfl (fun _ => mask_rrr _ _ _ _)

theorem SelectsRow.pow256 (rd : Reg) (ra : Reg) (rb : Reg) : SelectsRow.Statement (.pow256 rd ra rb) :=
  selectsRow_intro (opOf_wordR _ _ _ _ _ _) rfl (fun _ => mask_rrr _ _ _ _)

theorem SelectsRow.sqrt256 (rd : Reg) (ra : Reg) : SelectsRow.Statement (.sqrt256 rd ra) :=
  selectsRow_intro (opOf_wordR _ _ _ _ _ _) rfl (fun _ => mask_rr _ _ _)

theorem SelectsRow.and256 (rd : Reg) (ra : Reg) (rb : Reg) : SelectsRow.Statement (.and256 rd ra rb) :=
  selectsRow_intro (opOf_wordR _ _ _ _ _ _) rfl (fun _ => mask_rrr _ _ _ _)

theorem SelectsRow.or256 (rd : Reg) (ra : Reg) (rb : Reg) : SelectsRow.Statement (.or256 rd ra rb) :=
  selectsRow_intro (opOf_wordR _ _ _ _ _ _) rfl (fun _ => mask_rrr _ _ _ _)

theorem SelectsRow.xor256 (rd : Reg) (ra : Reg) (rb : Reg) : SelectsRow.Statement (.xor256 rd ra rb) :=
  selectsRow_intro (opOf_wordR _ _ _ _ _ _) rfl (fun _ => mask_rrr _ _ _ _)

theorem SelectsRow.not256 (rd : Reg) (ra : Reg) : SelectsRow.Statement (.not256 rd ra) :=
  selectsRow_intro (opOf_wordR _ _ _ _ _ _) rfl (fun _ => mask_rr _ _ _)

theorem SelectsRow.shl256 (rd : Reg) (ra : Reg) (rb : Reg) : SelectsRow.Statement (.shl256 rd ra rb) :=
  selectsRow_intro (opOf_wordR _ _ _ _ _ _) rfl (fun _ => mask_rrr _ _ _ _)

theorem SelectsRow.shr256 (rd : Reg) (ra : Reg) (rb : Reg) : SelectsRow.Statement (.shr256 rd ra rb) :=
  selectsRow_intro (opOf_wordR _ _ _ _ _ _) rfl (fun _ => mask_rrr _ _ _ _)

theorem SelectsRow.shli256 (rd : Reg) (ra : Reg) (imm16 : BitVec 16) : SelectsRow.Statement (.shli256 rd ra imm16) :=
  selectsRow_intro (opOf_wordI _ _ _ _) rfl (fun _ => mask_rri _ _ _ _)

theorem SelectsRow.shri256 (rd : Reg) (ra : Reg) (imm16 : BitVec 16) : SelectsRow.Statement (.shri256 rd ra imm16) :=
  selectsRow_intro (opOf_wordI _ _ _ _) rfl (fun _ => mask_rri _ _ _ _)

theorem SelectsRow.clz256 (rd : Reg) (ra : Reg) : SelectsRow.Statement (.clz256 rd ra) :=
  selectsRow_intro (opOf_wordR _ _ _ _ _ _) rfl (fun _ => mask_rr _ _ _)

theorem SelectsRow.ctz256 (rd : Reg) (ra : Reg) : SelectsRow.Statement (.ctz256 rd ra) :=
  selectsRow_intro (opOf_wordR _ _ _ _ _ _) rfl (fun _ => mask_rr _ _ _)

theorem SelectsRow.cmpeq256 (rd : Reg) (ra : Reg) (rb : Reg) : SelectsRow.Statement (.cmpeq256 rd ra rb) :=
  selectsRow_intro (opOf_wordR _ _ _ _ _ _) rfl (fun _ => mask_rrr _ _ _ _)

theorem SelectsRow.cmplt256 (rd : Reg) (ra : Reg) (rb : Reg) : SelectsRow.Statement (.cmplt256 rd ra rb) :=
  selectsRow_intro (opOf_wordR _ _ _ _ _ _) rfl (fun _ => mask_rrr _ _ _ _)

theorem SelectsRow.cmple256 (rd : Reg) (ra : Reg) (rb : Reg) : SelectsRow.Statement (.cmple256 rd ra rb) :=
  selectsRow_intro (opOf_wordR _ _ _ _ _ _) rfl (fun _ => mask_rrr _ _ _ _)

theorem SelectsRow.cmpgt256 (rd : Reg) (ra : Reg) (rb : Reg) : SelectsRow.Statement (.cmpgt256 rd ra rb) :=
  selectsRow_intro (opOf_wordR _ _ _ _ _ _) rfl (fun _ => mask_rrr _ _ _ _)

theorem SelectsRow.cmpge256 (rd : Reg) (ra : Reg) (rb : Reg) : SelectsRow.Statement (.cmpge256 rd ra rb) :=
  selectsRow_intro (opOf_wordR _ _ _ _ _ _) rfl (fun _ => mask_rrr _ _ _ _)

theorem SelectsRow.inc256 (rd : Reg) : SelectsRow.Statement (.inc256 rd) :=
  selectsRow_intro (opOf_wordR _ _ _ _ _ _) rfl (fun _ => mask_r _ _)

theorem SelectsRow.dec256 (rd : Reg) : SelectsRow.Statement (.dec256 rd) :=
  selectsRow_intro (opOf_wordR _ _ _ _ _ _) rfl (fun _ => mask_r _ _)

theorem SelectsRow.set256 (rd : Reg) (ra : Reg) : SelectsRow.Statement (.set256 rd ra) :=
  selectsRow_intro (opOf_wordR _ _ _ _ _ _) rfl (fun _ => mask_rr _ _ _)

theorem SelectsRow.from256 (rd : Reg) (ra : Reg) (t : Byte) : SelectsRow.Statement (.from256 rd ra t) :=
  selectsRow_intro (opOf_wordR _ _ _ _ _ _) rfl (fun _ => mask_rrt _ _ _ _)

theorem SelectsRow.to256 (rd : Reg) (ra : Reg) (t : Byte) : SelectsRow.Statement (.to256 rd ra t) :=
  selectsRow_intro (opOf_wordR _ _ _ _ _ _) rfl (fun _ => mask_rrt _ _ _ _)

theorem SelectsRow.bldle256 (rd : Reg) (ra : Reg) (rb : Reg) : SelectsRow.Statement (.bldle256 rd ra rb) :=
  selectsRow_intro (opOf_wordR _ _ _ _ _ _) rfl (fun _ => mask_rrr _ _ _ _)

theorem SelectsRow.bldbe256 (rd : Reg) (ra : Reg) (rb : Reg) : SelectsRow.Statement (.bldbe256 rd ra rb) :=
  selectsRow_intro (opOf_wordR _ _ _ _ _ _) rfl (fun _ => mask_rrr _ _ _ _)

theorem SelectsRow.bstle256 (rs : Reg) (ra : Reg) (rb : Reg) : SelectsRow.Statement (.bstle256 rs ra rb) :=
  selectsRow_intro (opOf_wordR _ _ _ _ _ _) rfl (fun _ => mask_rrr _ _ _ _)

theorem SelectsRow.bstbe256 (rs : Reg) (ra : Reg) (rb : Reg) : SelectsRow.Statement (.bstbe256 rs ra rb) :=
  selectsRow_intro (opOf_wordR _ _ _ _ _ _) rfl (fun _ => mask_rrr _ _ _ _)

theorem SelectsRow.parse256 (rd : Reg) (ra : Reg) (rb : Reg) (radix : Byte) : SelectsRow.Statement (.parse256 rd ra rb radix) :=
  selectsRow_intro (opOf_wordR _ _ _ _ _ _) rfl (fun _ => mask_rrrx _ _ _ _ _)

theorem SelectsRow.fmt256 (rd : Reg) (ra : Reg) (rb : Reg) (radix : Byte) : SelectsRow.Statement (.fmt256 rd ra rb radix) :=
  selectsRow_intro (opOf_wordR _ _ _ _ _ _) rfl (fun _ => mask_rrrx _ _ _ _ _)

end Sys2Proof.Laws
end

