-- ==== Sys2Proof/Laws/Step.lean ====
section
/-! SUPPORT. What one rising edge can do: one equation for each kind of edge. -/

namespace Sys2Proof.Machine

theorem step_eq (s : State) : step s = clockEdge (s.inputs.headD {}) { s with inputs := s.inputs.tail } := rfl

theorem clockEdge_rst {e : Edge} (h : e.rst = true) (s : State) : clockEdge e s = .next (resetEdge s) := by
  simp [clockEdge, h]

theorem clockEdge_hostWhileBusy {e : Edge} {s : State} (hr : e.rst = false) (hb : s.busy = true) (he : e.hbEn = true) :
    clockEdge e s = .refused .hostAccessWhileBusy := by
  simp [clockEdge, hr, hb, he]

theorem clockEdge_busy {e : Edge} {s : State} (hr : e.rst = false) (hb : s.busy = true) (he : e.hbEn = false) :
    clockEdge e s = .next { busyEdge e s with inReset := false } := by
  simp [clockEdge, hr, hb, he]

theorem clockEdge_accept {e : Edge} {s : State} (hr : e.rst = false) (hb : s.busy = false) (hi : s.inReset = false)
    (hv : e.cmdValid = true) : clockEdge e s = acceptCommand e.cmdWord { hostAccess e s with inReset := false } := by
  simp [clockEdge, hr, hb, hi, hv, cmdReady]

theorem clockEdge_idle {e : Edge} {s : State} (hr : e.rst = false) (hb : s.busy = false)
    (hv : e.cmdValid = false ∨ s.inReset = true) : clockEdge e s = .next { hostAccess e s with inReset := false } := by
  rcases hv with hv | hv <;> simp [clockEdge, hr, hb, hv, cmdReady]

/-- An accepted word is executed, or ends with IllegalCommand. -/
theorem acceptCommand_cases (w : CmdWord) (s : State) :
    (∃ i, decode w = .ok i ∧ acceptCommand w s = exec i s) ∨
    (∃ e, decode w = .error e ∧ acceptCommand w s = .next (respond (.error .illegalCommand) s)) := by
  unfold acceptCommand
  cases hd : decode w with
  | ok i => exact .inl ⟨i, rfl, rfl⟩
  | error e => exact .inr ⟨e, rfl, rfl⟩

/-- A host access keeps BUF in canonical form. -/
theorem hostAccess_wf {e : Edge} {s : State} (h : s.buf.wf) : (hostAccess e s).buf.wf := by
  unfold hostAccess
  split
  · split
    · exact Memory.write_wf h e.hbAddr.isLt _
    · simpa using h
  · exact h

end Sys2Proof.Machine
end

