-- ==== Sys2Proof/Tests/Slice0.lean ====
section
/-! SUPPORT. Tests. A word is written out digit by digit from 30_encoding.md R71, R72, R77: two digits of opcode, then one each for
rd, ra, rb, rc, then aux; or rd, ra, imm16. The number in a test's comment is its row in spec/95_test_vectors.md, which is where its
words and values come from; "by hand" ones are computed from the rule named. -/

-- One theorem at a time: many at once need more threads than the memory limit allows.
set_option Elab.async false

namespace Sys2Proof.Tests

open Sys2Proof Sys2Proof.Machine

/-! ### WellFormed: the one operand that can be out of range -/

theorem test_wellFormed_refuses_limb_index_4_of_limbget : (Instr.limbget 4 3 4).wellFormed = false := by decide
theorem test_wellFormed_refuses_limb_index_4_of_limbset : (Instr.limbset 4 3 5 4).wellFormed = false := by decide
theorem test_wellFormed_accepts_limb_index_3 :
    (Instr.limbget 4 3 3).wellFormed = true ∧ (Instr.limbset 4 3 5 3).wellFormed = true := by decide

/-! ### Every constructor's word -/

theorem test_decode_limb :
    decode 0x01435600 = .ok (.adc64 4 3 5 6) ∧
    decode 0x02435600 = .ok (.sbb64 4 3 5 6) ∧
    decode 0x03435000 = .ok (.wmul64 4 3 5) ∧
    decode 0x04435600 = .ok (.mac64 4 3 5 6) ∧
    decode 0x05435000 = .ok (.divmod128 4 3 5) ∧
    decode 0x06435000 = .ok (.divmod128x64 4 3 5) ∧
    decode 0x0740FFC1 = .ok (.ldi 4 0xFFC1) ∧
    decode 0x08430003 = .ok (.limbget 4 3 3) ∧
    decode 0x09435003 = .ok (.limbset 4 3 5 3) := by decide

theorem test_decode_arith128 :
    decode 0x40435000 = .ok (.add128 4 3 5) ∧
    decode 0x41435000 = .ok (.sub128 4 3 5) ∧
    decode 0x42435000 = .ok (.mul128 4 3 5) ∧
    decode 0x43435000 = .ok (.div128 4 3 5) ∧
    decode 0x44435000 = .ok (.rem128 4 3 5) ∧
    decode 0x45435600 = .ok (.muldiv128 4 3 5 6) ∧
    decode 0x46435000 = .ok (.pow128 4 3 5) ∧
    decode 0x47430000 = .ok (.sqrt128 4 3) ∧
    decode 0x57400000 = .ok (.inc128 4) ∧
    decode 0x58400000 = .ok (.dec128 4) := by decide

theorem test_decode_bitwise128 :
    decode 0x48435000 = .ok (.and128 4 3 5) ∧
    decode 0x49435000 = .ok (.or128 4 3 5) ∧
    decode 0x4A435000 = .ok (.xor128 4 3 5) ∧
    decode 0x4B430000 = .ok (.not128 4 3) ∧
    decode 0x4C435000 = .ok (.shl128 4 3 5) ∧
    decode 0x4D435000 = .ok (.shr128 4 3 5) ∧
    decode 0x4E43FFC1 = .ok (.shli128 4 3 0xFFC1) ∧
    decode 0x4F43FFC1 = .ok (.shri128 4 3 0xFFC1) ∧
    decode 0x50430000 = .ok (.clz128 4 3) ∧
    decode 0x51430000 = .ok (.ctz128 4 3) := by decide

theorem test_decode_compare128 :
    decode 0x52435000 = .ok (.cmpeq128 4 3 5) ∧
    decode 0x53435000 = .ok (.cmplt128 4 3 5) ∧
    decode 0x54435000 = .ok (.cmple128 4 3 5) ∧
    decode 0x55435000 = .ok (.cmpgt128 4 3 5) ∧
    decode 0x56435000 = .ok (.cmpge128 4 3 5) ∧
    decode 0x59430000 = .ok (.set128 4 3) := by decide

theorem test_decode_convert_serialize128 :
    decode 0x5A43000B = .ok (.from128 4 3 11) ∧
    decode 0x5B43000B = .ok (.to128 4 3 11) ∧
    decode 0x5C435000 = .ok (.bldle128 4 3 5) ∧
    decode 0x5D435000 = .ok (.bldbe128 4 3 5) ∧
    decode 0x5E435000 = .ok (.bstle128 4 3 5) ∧
    decode 0x5F435000 = .ok (.bstbe128 4 3 5) ∧
    decode 0x60435010 = .ok (.parse128 4 3 5 16) ∧
    decode 0x61435010 = .ok (.fmt128 4 3 5 16) := by decide

theorem test_decode_arith256 :
    decode 0x80435000 = .ok (.add256 4 3 5) ∧
    decode 0x81435000 = .ok (.sub256 4 3 5) ∧
    decode 0x82435000 = .ok (.mul256 4 3 5) ∧
    decode 0x83435000 = .ok (.div256 4 3 5) ∧
    decode 0x84435000 = .ok (.rem256 4 3 5) ∧
    decode 0x86435000 = .ok (.pow256 4 3 5) ∧
    decode 0x87430000 = .ok (.sqrt256 4 3) ∧
    decode 0x97400000 = .ok (.inc256 4) ∧
    decode 0x98400000 = .ok (.dec256 4) := by decide

theorem test_decode_bitwise256 :
    decode 0x88435000 = .ok (.and256 4 3 5) ∧
    decode 0x89435000 = .ok (.or256 4 3 5) ∧
    decode 0x8A435000 = .ok (.xor256 4 3 5) ∧
    decode 0x8B430000 = .ok (.not256 4 3) ∧
    decode 0x8C435000 = .ok (.shl256 4 3 5) ∧
    decode 0x8D435000 = .ok (.shr256 4 3 5) ∧
    decode 0x8E43FFC1 = .ok (.shli256 4 3 0xFFC1) ∧
    decode 0x8F43FFC1 = .ok (.shri256 4 3 0xFFC1) ∧
    decode 0x90430000 = .ok (.clz256 4 3) ∧
    decode 0x91430000 = .ok (.ctz256 4 3) := by decide

theorem test_decode_compare256 :
    decode 0x92435000 = .ok (.cmpeq256 4 3 5) ∧
    decode 0x93435000 = .ok (.cmplt256 4 3 5) ∧
    decode 0x94435000 = .ok (.cmple256 4 3 5) ∧
    decode 0x95435000 = .ok (.cmpgt256 4 3 5) ∧
    decode 0x96435000 = .ok (.cmpge256 4 3 5) ∧
    decode 0x99430000 = .ok (.set256 4 3) := by decide

theorem test_decode_convert_serialize256 :
    decode 0x9A43000B = .ok (.from256 4 3 11) ∧
    decode 0x9B43000B = .ok (.to256 4 3 11) ∧
    decode 0x9C435000 = .ok (.bldle256 4 3 5) ∧
    decode 0x9D435000 = .ok (.bldbe256 4 3 5) ∧
    decode 0x9E435000 = .ok (.bstle256 4 3 5) ∧
    decode 0x9F435000 = .ok (.bstbe256 4 3 5) ∧
    decode 0xA0435010 = .ok (.parse256 4 3 5 16) ∧
    decode 0xA1435010 = .ok (.fmt256 4 3 5 16) := by decide

/-! ### One step -/

/-- An idle core whose registers hold `regs` (number, value) and whose BUF holds `bytes`. -/
def start (regs : List (Nat × Nat)) (bytes : Memory := []) : State :=
  { State.reset with gpr := Vector.ofFn fun i => BitVec.ofNat 256 ((regs.lookup (i.val + 3)).getD 0), buf := bytes }

/-- The bytes of a string of characters from an address on. -/
def bytesAt (addr : Nat) (bs : List Byte) : Memory := bs.mapIdx fun j b => (addr + j, b)

/-- One step that runs the word: the status and the value of a register after it. -/
def regAfter (s : State) (w : Nat) (r : Reg) : Option (Status × Nat) :=
  match step (s.withFetchWord 32 w) with
  | .next t => some (t.rspStatus, val t r)
  | _ => none

/-- One step that runs the word: the status and BUF after it. -/
def bufAfter (s : State) (w : Nat) : Option (Status × Memory) :=
  match step (s.withFetchWord 32 w) with
  | .next t => some (t.rspStatus, t.buf)
  | _ => none

/-- The state an outcome goes on with. -/
def next? : Result → Option State
  | .next t => some t
  | _ => none

/-- L2 -/
theorem test_adc64_carry :
    regAfter (start [(3, 2 ^ 64 - 1), (5, 2 ^ 64 - 1), (6, 1)]) 0x01435600 4 =
      some (.ok, 2 ^ 65 - 1) := by decide +kernel

/-- L3 -/
theorem test_adc64_reads_bit_0_of_the_carry :
    regAfter (start [(3, 1), (5, 1), (6, 2)]) 0x01435600 4 =
      some (.ok, 2) := by decide +kernel

/-- L5 -/
theorem test_sbb64_borrow : regAfter (start [(3, 0), (5, 1), (6, 0)]) 0x02435600 4 = some (.ok, 2 ^ 65 - 1) := by
  decide +kernel

/-- L7 -/
theorem test_sbb64_borrow_in : regAfter (start [(3, 5), (5, 3), (6, 1)]) 0x02435600 4 = some (.ok, 1) := by
  decide +kernel

/-- L8 -/
theorem test_wmul64 :
    regAfter (start [(3, 2 ^ 64 - 1), (5, 2 ^ 64 - 1)]) 0x03435000 4 =
      some (.ok, 0xFFFFFFFFFFFFFFFE0000000000000001) := by decide +kernel

/-- L10 -/
theorem test_mac64 :
    regAfter (start [(4, 5), (3, 2 ^ 64 - 1), (5, 2 ^ 64 - 1), (6, 2 ^ 64 - 1)]) 0x04435600 4 =
      some (.ok, 0xFFFFFFFFFFFFFFFF0000000000000005) := by decide +kernel

/-- L11 -/
theorem test_mac64_largest :
    regAfter (start [(4, 2 ^ 64 - 1), (3, 2 ^ 64 - 1), (5, 2 ^ 64 - 1), (6, 2 ^ 64 - 1)]) 0x04435600 4 =
      some (.ok, 2 ^ 128 - 1) := by decide +kernel

/-- L12 -/
theorem test_divmod128 : regAfter (start [(3, 100), (5, 3)]) 0x05435000 4 = some (.ok, 2 ^ 128 + 33) := by
  decide +kernel

/-- L14 -/
theorem test_divmod128_by_zero_view :
    regAfter (start [(3, 5), (5, 2 ^ 128), (4, 9)]) 0x05435000 4 =
      some (.error .divideByZero, 9) := by decide +kernel

/-- L16 -/
theorem test_divmod128x64 :
    regAfter (start [(3, 2 ^ 128 - 1), (5, 10)]) 0x06435000 4 =
      some (.ok, 5 * 2 ^ 128 + 34028236692093846346337460743176821145) := by decide +kernel

/-- L17 -/
theorem test_divmod128x64_by_zero_view :
    regAfter (start [(3, 7), (5, 2 ^ 64), (4, 9)]) 0x06435000 4 =
      some (.error .divideByZero, 9) := by decide +kernel

/-- L19 -/
theorem test_ldi_is_unsigned : regAfter (start []) 0x0740FFFF 4 = some (.ok, 65535) := by
  decide +kernel

/-- L20 -/
theorem test_ldi_with_ra_is_illegal :
    regAfter (start [(4, 9)]) 0x07410005 4 =
      some (.error .illegalCommand, 9) := by decide +kernel

/-- L21 -/
theorem test_limbget : regAfter (start []) 0x08420003 4 = some (.ok, 2 ^ 64 - 1) := by
  decide +kernel

/-- L23 -/
theorem test_limbget_index_4_is_illegal :
    regAfter (start [(4, 9)]) 0x08420004 4 =
      some (.error .illegalCommand, 9) := by decide +kernel

/-- L22 -/
theorem test_limbset : regAfter (start []) 0x09401003 4 = some (.ok, 2 ^ 192) := by
  decide +kernel

/-- A2 -/
theorem test_add128_reads_the_128_bit_view : regAfter (start []) 0x40421000 4 = some (.ok, 0) := by
  decide +kernel

/-- A4 -/
theorem test_sub128 : regAfter (start []) 0x41401000 4 = some (.ok, 2 ^ 128 - 1) := by
  decide +kernel

/-- A10 -/
theorem test_mul128 : regAfter (start [(3, 2 ^ 64 + 1)]) 0x42433000 4 = some (.ok, 2 ^ 65 + 1) := by
  decide +kernel

/-- A18 -/
theorem test_div128 : regAfter (start [(3, 100), (5, 3)]) 0x43435000 4 = some (.ok, 33) := by
  decide +kernel

/-- A20 -/
theorem test_div128_by_zero :
    regAfter (start [(3, 100), (4, 9)]) 0x43430000 4 =
      some (.error .divideByZero, 9) := by decide +kernel

/-- A19 -/
theorem test_rem128 : regAfter (start [(3, 100), (5, 3)]) 0x44435000 4 = some (.ok, 1) := by
  decide +kernel

/-- A25 -/
theorem test_muldiv128_truncates :
    regAfter (start [(6, 3)]) 0x45422600 4 =
      some (.ok, 0xAAAAAAAAAAAAAAAAAAAAAAAAAAAAAAAB) := by decide +kernel

/-- A26 -/
theorem test_muldiv128_intermediate :
    regAfter (start [(3, 10 ^ 20), (5, 10 ^ 20)]) 0x45433500 4 =
      some (.ok, 10 ^ 20) := by decide +kernel

/-- A30 -/
theorem test_pow128 :
    regAfter (start [(3, 3), (5, 200)]) 0x46435000 4 =
      some (.ok, 0x83ECF6F6E4A7AE225BFAFF1EAAF8B0A1) := by decide +kernel

/-- A33 -/
theorem test_pow128_negative_exponent : regAfter (start [(3, 3)]) 0x46432000 4 = some (.ok, 0) := by
  decide +kernel

/-- A38 -/
theorem test_sqrt128 : regAfter (start [(3, 99)]) 0x47430000 4 = some (.ok, 9) := by
  decide +kernel

/-- A42 -/
theorem test_inc128_clears_the_high_limbs : regAfter (start [(3, 2 ^ 256 - 1)]) 0x57300000 3 = some (.ok, 0) := by
  decide +kernel

/-- A44 -/
theorem test_dec128 : regAfter (start [(3, 2 ^ 128)]) 0x58300000 3 = some (.ok, 2 ^ 128 - 1) := by
  decide +kernel

/-- A7 -/
theorem test_add256 : regAfter (start [(3, 12345)]) 0x80432000 4 = some (.ok, 12344) := by
  decide +kernel

/-- A6 -/
theorem test_sub256_borrows_across_limbs :
    regAfter (start [(3, 2 ^ 64)]) 0x81431000 4 =
      some (.ok, 2 ^ 64 - 1) := by decide +kernel

/-- A17 -/
theorem test_mul256 :
    regAfter (start [(3, 2 ^ 192 + 2 ^ 64), (5, 2 ^ 64 + 1)]) 0x82435000 4 =
      some (.ok, 2 ^ 192 + 2 ^ 128 + 2 ^ 64) := by decide +kernel

/-- A22 -/
theorem test_div256 : regAfter (start []) 0x83422000 4 = some (.ok, 1) := by
  decide +kernel

/-- A23 -/
theorem test_rem256 : regAfter (start [(5, 5)]) 0x84405000 4 = some (.ok, 0) := by
  decide +kernel

/-- A21 -/
theorem test_rem256_by_zero :
    regAfter (start [(3, 100), (4, 9)]) 0x84430000 4 =
      some (.error .divideByZero, 9) := by decide +kernel

/-- A31 -/
theorem test_pow256 :
    regAfter (start [(3, 3), (5, 200)]) 0x86435000 4 =
      some (.ok, 0xC21A937A76F3432FFD73D97E447606B683ECF6F6E4A7AE225BFAFF1EAAF8B0A1) := by decide +kernel

/-- A39 -/
theorem test_sqrt256 : regAfter (start []) 0x87420000 4 = some (.ok, 2 ^ 128 - 1) := by
  decide +kernel

/-- A45 -/
theorem test_inc256_of_a_constant :
    regAfter (start []) 0x97200000 2 =
      some (.error .immutableConstantViolation, 2 ^ 256 - 1) := by decide +kernel

/-- by hand, R138. -/
theorem test_inc256 : regAfter (start [(3, 2 ^ 128 - 1)]) 0x97300000 3 = some (.ok, 2 ^ 128) := by
  decide +kernel

/-- A43 -/
theorem test_dec256 : regAfter (start [(3, 0)]) 0x98300000 3 = some (.ok, 2 ^ 256 - 1) := by
  decide +kernel

/-- B1 -/
theorem test_and128 : regAfter (start [(3, 0xF0F0)]) 0x48423000 4 = some (.ok, 0xF0F0) := by
  decide +kernel

/-- by hand, R162. -/
theorem test_and256 :
    regAfter (start [(3, 2 ^ 255 + 6), (5, 2 ^ 255 + 3)]) 0x88435000 4 =
      some (.ok, 2 ^ 255 + 2) := by decide +kernel

/-- by hand, R163. -/
theorem test_or128 :
    regAfter (start [(3, 2 ^ 255 + 6), (5, 2 ^ 127 + 3)]) 0x49435000 4 =
      some (.ok, 2 ^ 127 + 7) := by decide +kernel

/-- B3 -/
theorem test_or256 : regAfter (start [(3, 2 ^ 255), (5, 1)]) 0x89435000 4 = some (.ok, 2 ^ 255 + 1) := by
  decide +kernel

/-- B5 -/
theorem test_xor128 : regAfter (start []) 0x4A420000 4 = some (.ok, 2 ^ 128 - 1) := by
  decide +kernel

/-- by hand, R166. -/
theorem test_xor256 : regAfter (start [(3, 2 ^ 255 + 6), (5, 3)]) 0x8A435000 4 = some (.ok, 2 ^ 255 + 5) := by
  decide +kernel

/-- B8 -/
theorem test_not128 : regAfter (start [(3, 2 ^ 256 - 1)]) 0x4B430000 4 = some (.ok, 0) := by
  decide +kernel

/-- B7 -/
theorem test_not256 : regAfter (start []) 0x8B400000 4 = some (.ok, 2 ^ 256 - 1) := by
  decide +kernel

/-- B10 -/
theorem test_shl128_by_the_width : regAfter (start [(5, 128)]) 0x4C415000 4 = some (.ok, 0) := by
  decide +kernel

/-- B13 -/
theorem test_shl128_reads_64_bits_of_the_amount :
    regAfter (start [(5, 2 ^ 64 + 3)]) 0x4C415000 4 =
      some (.ok, 8) := by decide +kernel

/-- by hand, R171. -/
theorem test_shl256 : regAfter (start [(3, 3), (5, 255)]) 0x8C435000 4 = some (.ok, 2 ^ 255) := by
  decide +kernel

/-- B16 -/
theorem test_shr128 : regAfter (start [(5, 127)]) 0x4D425000 4 = some (.ok, 1) := by
  decide +kernel

/-- B19 -/
theorem test_shr256_negative_amount : regAfter (start [(5, 2 ^ 63)]) 0x8D425000 4 = some (.ok, 0) := by
  decide +kernel

/-- B24 -/
theorem test_shli128 : regAfter (start []) 0x4E420001 4 = some (.ok, 2 ^ 128 - 2) := by
  decide +kernel

/-- B20 -/
theorem test_shli128_negative_amount : regAfter (start []) 0x4E418000 4 = some (.ok, 0) := by
  decide +kernel

/-- B21 -/
theorem test_shli256 : regAfter (start []) 0x8E4100FF 4 = some (.ok, 2 ^ 255) := by
  decide +kernel

/-- B23 -/
theorem test_shri128 : regAfter (start []) 0x4F420040 4 = some (.ok, 2 ^ 64 - 1) := by
  decide +kernel

/-- B22 -/
theorem test_shri256 : regAfter (start []) 0x8F4200FF 4 = some (.ok, 1) := by
  decide +kernel

/-- B29 -/
theorem test_clz128 : regAfter (start [(3, 2 ^ 128)]) 0x50430000 4 = some (.ok, 128) := by
  decide +kernel

/-- B31 -/
theorem test_clz256 : regAfter (start [(3, 2 ^ 128)]) 0x90430000 4 = some (.ok, 127) := by
  decide +kernel

/-- B33 -/
theorem test_ctz128 : regAfter (start [(3, 2 ^ 128)]) 0x51430000 4 = some (.ok, 128) := by
  decide +kernel

/-- B34 -/
theorem test_ctz256 : regAfter (start [(3, 2 ^ 255)]) 0x91430000 4 = some (.ok, 255) := by
  decide +kernel

/-- B38 -/
theorem test_cmpeq128 : regAfter (start [(3, 2 ^ 128)]) 0x52430000 4 = some (.ok, 1) := by
  decide +kernel

/-- by hand, R184. -/
theorem test_cmpeq256 : regAfter (start [(3, 2 ^ 128)]) 0x92430000 4 = some (.ok, 0) := by
  decide +kernel

/-- B46 -/
theorem test_cmplt128 : regAfter (start [(3, 2 ^ 128)]) 0x53431000 4 = some (.ok, 1) := by
  decide +kernel

/-- by hand, R186. -/
theorem test_cmplt256 : regAfter (start [(3, 2 ^ 128)]) 0x93431000 4 = some (.ok, 0) := by
  decide +kernel

/-- B41 -/
theorem test_cmple128 : regAfter (start []) 0x54411000 4 = some (.ok, 1) := by
  decide +kernel

/-- by hand, R188. -/
theorem test_cmple256 : regAfter (start [(3, 2 ^ 128)]) 0x94431000 4 = some (.ok, 0) := by
  decide +kernel

/-- by hand, R189. -/
theorem test_cmpgt128 : regAfter (start [(3, 2 ^ 128)]) 0x55431000 4 = some (.ok, 0) := by
  decide +kernel

/-- B42 -/
theorem test_cmpgt256 : regAfter (start []) 0x95421000 4 = some (.ok, 1) := by
  decide +kernel

/-- B45 -/
theorem test_cmpge128 : regAfter (start []) 0x56422000 4 = some (.ok, 1) := by
  decide +kernel

/-- B44 -/
theorem test_cmpge256 : regAfter (start []) 0x96401000 4 = some (.ok, 0) := by
  decide +kernel

/-- B47 -/
theorem test_set128 : regAfter (start []) 0x59420000 4 = some (.ok, 2 ^ 128 - 1) := by
  decide +kernel

/-- B48 -/
theorem test_set256 : regAfter (start []) 0x99420000 4 = some (.ok, 2 ^ 256 - 1) := by
  decide +kernel

/-- C1 -/
theorem test_from128_i8 : regAfter (start [(3, 0x80)]) 0x5A430005 4 = some (.ok, 2 ^ 128 - 128) := by
  decide +kernel

/-- C12 -/
theorem test_from128_f64 : regAfter (start [(3, 0x4415AF1D78B58C40)]) 0x5A43000A 4 = some (.ok, 10 ^ 20) := by
  decide +kernel

/-- C17 -/
theorem test_from256_f32 : regAfter (start [(3, 0x7F7FFFFF)]) 0x9A430009 4 = some (.ok, 0xFFFFFF * 2 ^ 104) := by
  decide +kernel

/-- C14 -/
theorem test_from256_f64_negative :
    regAfter (start [(3, 0xC004000000000000)]) 0x9A43000A 4 =
      some (.ok, 2 ^ 256 - 2) := by decide +kernel

/-- C27 -/
theorem test_to128_f64_tie : regAfter (start [(3, 2 ^ 53 + 3)]) 0x5B43000A 4 = some (.ok, 0x4340000000000002) := by
  decide +kernel

/-- C32 -/
theorem test_to128_f32_rounds_up : regAfter (start [(3, 2 ^ 64 - 1)]) 0x5B430009 4 = some (.ok, 0x5F800000) := by
  decide +kernel

/-- C38 -/
theorem test_to256_f32_overflow :
    regAfter (start [(3, 2 ^ 128 - 2 ^ 103)]) 0x9B430009 4 =
      some (.ok, 0x7F800000) := by decide +kernel

/-- C21 -/
theorem test_to256_unsupported :
    regAfter (start [(3, 1), (4, 9)]) 0x9B4300FF 4 =
      some (.error .unsupportedType, 9) := by decide +kernel

/-- S7: the read wraps at 256. -/
theorem test_bldle128_wraps :
    regAfter (start [(3, 250), (4, 16)]
      (bytesAt 0 [6, 7, 8, 9, 10, 11, 12, 13, 14, 15] ++ bytesAt 250 [0, 1, 2, 3, 4, 5])) 0x5C534000 5 =
      some (.ok, 0x0F0E0D0C0B0A09080706050403020100) := by decide +kernel

/-- S4: the length is not truncated. -/
theorem test_bldle128_length : regAfter (start [(4, 2 ^ 128 + 16), (5, 9)]) 0x5C534000 5 = some (.error .invalidLength, 9) := by
  decide +kernel

/-- S2 -/
theorem test_bldle256 :
    regAfter (start [(4, 32)] (bytesAt 0 (1 :: List.replicate 31 0))) 0x9C534000 5 = some (.ok, 1) := by decide +kernel

/-- S5 -/
theorem test_bldbe128 :
    regAfter (start [(4, 16)] (bytesAt 0 (List.replicate 8 0 ++ [0x01, 0x23, 0x45, 0x67, 0x89, 0xAB, 0xCD, 0xEF])))
      0x5D534000 5 = some (.ok, 0x0123456789ABCDEF) := by decide +kernel

/-- S6 -/
theorem test_bldbe256 :
    regAfter (start [(4, 32)] (bytesAt 0 (0x80 :: List.replicate 31 0))) 0x9D534000 5 = some (.ok, 2 ^ 255) := by decide +kernel

/-- S9 -/
theorem test_bstle128 : bufAfter (start [(6, 0x0123456789ABCDEF), (4, 16)]) 0x5E634000 =
    some (.ok, bytesAt 0 ([0xEF, 0xCD, 0xAB, 0x89, 0x67, 0x45, 0x23, 0x01] ++ List.replicate 8 0)) := by decide +kernel

/-- S11: the write wraps and x2 is a legal source. -/
theorem test_bstle128_wraps : bufAfter (start [(3, 255), (4, 16)]) 0x5E234000 =
    some (.ok, bytesAt 0 (List.replicate 15 0xFF) ++ [(255, 0xFF)]) := by decide +kernel

/-- S13 -/
theorem test_bstle256 : bufAfter (start [(6, 2 ^ 255), (4, 32)]) 0x9E634000 =
    some (.ok, bytesAt 0 (List.replicate 31 0 ++ [0x80])) := by decide +kernel

/-- S10 -/
theorem test_bstbe128 : bufAfter (start [(6, 0x0123456789ABCDEF), (4, 16)]) 0x5F634000 =
    some (.ok, bytesAt 0 (List.replicate 8 0 ++ [0x01, 0x23, 0x45, 0x67, 0x89, 0xAB, 0xCD, 0xEF])) := by decide +kernel

/-- S12 -/
theorem test_bstbe256 : bufAfter (start [(4, 32)]) 0x9F134000 =
    some (.ok, bytesAt 0 (List.replicate 31 0 ++ [1])) := by decide +kernel

/-- S15: hex digits of both cases. -/
theorem test_parse128 : regAfter (start [(4, 2)] (bytesAt 0 [0x46, 0x66])) 0x60534010 5 = some (.ok, 255) := by decide +kernel

/-- S16: a letter is no decimal digit. -/
theorem test_parse128_invalid_character :
    regAfter (start [(4, 2), (5, 9)] (bytesAt 0 [0x31, 0x61])) 0x6053400A 5 = some (.error .invalidCharacter, 9) := by
  decide +kernel

/-- S24 -/
theorem test_parse256_wraps : regAfter (start [(4, 65)] (bytesAt 0 (List.replicate 65 0x66))) 0xA0534010 5 =
    some (.ok, 2 ^ 256 - 1) := by decide +kernel

/-- S27 -/
theorem test_fmt128 : bufAfter (start []) 0x61632010 = some (.ok, bytesAt 0 (List.replicate 32 0x66)) ∧
    regAfter (start []) 0x61632010 6 = some (.ok, 32) := by decide +kernel

/-- S30: the write wraps. -/
theorem test_fmt256 : bufAfter (start [(3, 255), (4, 100)]) 0xA163400A =
      some (.ok, [(0, 0x30), (1, 0x30), (255, 0x31)]) ∧
    regAfter (start [(3, 255), (4, 100)]) 0xA163400A 6 = some (.ok, 3) := by decide +kernel

/-! ### The order of the errors -/

/-- E6: an illegal word for a constant register. -/
theorem test_illegal_before_immutable : regAfter (start []) 0x57110000 1 = some (.error .illegalCommand, 1) := by decide +kernel

/-- E12 -/
theorem test_immutable_before_radix : regAfter (start []) 0x60003008 0 = some (.error .immutableConstantViolation, 0) := by
  decide +kernel

/-- S21 -/
theorem test_radix_before_length : regAfter (start [(4, 257), (5, 9)]) 0x60534002 5 = some (.error .invalidRadix, 9) := by
  decide +kernel

/-- E15 -/
theorem test_immutable_before_type : regAfter (start []) 0x9A03000C 0 = some (.error .immutableConstantViolation, 0) := by
  decide +kernel

/-! ### The ports -/

/-- 20_memory.md R55: a host write, then a host read of the same byte. -/
theorem test_host_write_then_read :
    ((next? (clockEdge { hbEn := true, hbWe := true, hbAddr := 255, hbWdata := 0x5A } State.reset)).bind fun s =>
      (next? (clockEdge { hbEn := true, hbAddr := 255 } s)).map (·.hbRdata)) = some 0x5A := by decide +kernel

/-- 20_memory.md R55: a host write at the edge that accepts PARSE.128 x5, x0, x1, 16 is seen by it. -/
theorem test_host_write_at_the_accepting_edge :
    (next? (clockEdge { cmdValid := true, cmdWord := 0x60501010, hbEn := true, hbWe := true, hbAddr := 0, hbWdata := 0x46 }
      State.reset)).map (fun s => val s 5) = some 15 := by decide +kernel

/-- 20_memory.md R54: the response is taken at an edge with `rsp_ready = 1`. -/
theorem test_response_taken :
    (next? (clockEdge { rspReady := true } { State.reset with busy := true, rspPending := true })).map
      (fun s => (cmdReady s, rspValid s)) = some (true, false) := by decide +kernel

/-- 70_reset_and_hazards.md R340: no command is accepted at an edge with `rst = 1`. -/
theorem test_no_command_in_reset :
    (next? (clockEdge { rst := true, cmdValid := true, cmdWord := 0x07300064 } State.reset)).map
      (fun s => (s.busy, cmdReady s)) = some (false, false) := by decide +kernel

/-! ### Witnesses: for each statement with hypotheses, a state and operands that meet them together -/

theorem witness_DecodeOfEncodeGivesTheCommand :
    (Instr.limbset 4 3 5 3).wellFormed = true ∧ (Instr.shli128 15 0 0x8000).wellFormed = true ∧
    (Instr.fmt256 0 15 3 255).wellFormed = true := by decide

theorem witness_EncodeOfDecodeGivesTheWord :
    decode 0x09435003 = .ok (.limbset 4 3 5 3) ∧ decode 0x4EF08000 = .ok (.shli128 15 0 0x8000) ∧
    decode 0xA10F30FF = .ok (.fmt256 0 15 3 255) := by decide

/-- The first and last reserved opcode of each range, and the used opcodes beside them. -/
theorem witness_ReservedOpcodesEndWithIllegalCommand :
    [0x00FFFFFF, 0x0A000000, 0x3F000000, 0x62000000, 0x7F000000, 0x85000000, 0xA2000000, 0xBF000000, 0xC0000000,
      0xFF000000].map decode = List.replicate 10 (.error .reservedOpcode) ∧
    [0x01000000, 0x09000000, 0x40000000, 0x61000000, 0x84000000, 0x86000000, 0xA1000000].map decode =
      [.ok (.adc64 0 0 0 0), .ok (.limbset 0 0 0 0), .ok (.add128 0 0 0), .ok (.fmt128 0 0 0 0), .ok (.rem256 0 0 0),
        .ok (.pow256 0 0 0), .ok (.fmt256 0 0 0 0)] := by decide +kernel

theorem witness_NonzeroReservedFieldEndsWithIllegalCommand :
    (∃ row ∈ opcodeTable, row.opcode = opOf 0x80321001 ∧ 0x80321001#32 &&& row.mask ≠ row.pattern) ∧
    (∃ row ∈ opcodeTable, row.opcode = opOf 0x08420004 ∧ 0x08420004#32 &&& row.mask ≠ row.pattern) ∧
    (∃ row ∈ opcodeTable, row.opcode = opOf 0x08420003 ∧ 0x08420003#32 &&& row.mask = row.pattern) := by decide

/-- A ready core whose next edge presents LDI x3, 100. -/
def aboutToRun : State := { start [] with inputs := [presentCommand 0x07300064] }

theorem witness_StepRunsTheDecodedCommand :
    aboutToRun.inputs = presentCommand 0x07300064 :: [] ∧ cmdReady aboutToRun = true ∧
    (presentCommand 0x07300064).rst = false ∧ (presentCommand 0x07300064).hbEn = false ∧
    (presentCommand 0x07300064).cmdValid = true ∧ decode (presentCommand 0x07300064).cmdWord = .ok (.ldi 3 100) ∧
    decode (presentCommand 0).cmdWord = .error .reservedOpcode ∧
    (next? (step aboutToRun)).map (fun t => (t.inputs, t.busy, val t 3)) = some ([], true, 100) := by decide +kernel

/-- A core whose response waits. -/
def responding : State := { start [] with busy := true, rspPending := true }

/-- A core that still executes. -/
def executing : State := { start [] with busy := true }

theorem witness_CommandHandshake :
    (cmdReady (start []) = true ∧ ∃ t, clockEdge (presentCommand 0x07300064) (start []) = .next t) ∧
    (executing.busy = true ∧ executing.rspPending = false ∧ executing.inReset = false) ∧
    (rspValid responding = true ∧ responding.busy = true ∧ responding.inReset = false ∧
      clockEdge {} responding = .next responding ∧ clockEdge {} executing = .next executing ∧
      clockEdge { latencyEnds := true } executing = .next responding ∧
      ∃ t, clockEdge { rspReady := true } responding = .next t) :=
  ⟨⟨by decide, _, rfl⟩, by decide, by decide, by decide, by decide, rfl, rfl, rfl, _, rfl⟩

/-- Every clause: the first and last BUF address, a written byte and one that is not, no access at all, a command presented to a
core still in reset, a read repeated. -/
theorem witness_HostBufPortReadsAndWrites :
    clockEdge { hbEn := true } executing = .refused .hostAccessWhileBusy ∧
    (∃ t, clockEdge { hbEn := true, hbWe := true, hbAddr := 0, hbWdata := 7 } (start []) = .next t ∧ t.buf.read 0 = some 7) ∧
    (∃ t, clockEdge { hbEn := true, hbAddr := 255 } (start [] [(255, 9)]) = .next t ∧ t.hbRdata = 9) ∧
    (∃ t, clockEdge { hbEn := true, hbAddr := 254 } (start [] [(255, 9)]) = .next t ∧ t.buf = [(255, 9)] ∧
      ∃ u, clockEdge { hbEn := true, hbAddr := 254 } t = .next u ∧ u.hbRdata = t.hbRdata) ∧
    (∃ t, clockEdge {} { start [] with hbRdata := 3 } = .next t ∧ t.hbRdata = 3) ∧
    (cmdReady { start [] with inReset := true } = false ∧
      ∃ t, clockEdge (presentCommand 0x07300064) { start [] with inReset := true } = .next t ∧ t.busy = false) :=
  ⟨rfl, ⟨_, rfl, rfl⟩, ⟨_, rfl, rfl⟩, ⟨_, rfl, rfl, _, rfl, rfl⟩, ⟨_, rfl, rfl⟩, rfl, _, rfl, rfl⟩

theorem witness_HostAccessComesBeforeTheCommand :
    cmdReady (start []) = true ∧
    ∃ u, clockEdge { cmdWord := 0x60501010, hbEn := true, hbWe := true, hbWdata := 0x46 } (start []) = .next u :=
  ⟨by decide, _, rfl⟩

theorem witness_ResetEdgeIdlesTheInterface :
    ∃ t, clockEdge { rst := true, hbEn := true, cmdValid := true } responding = .next t ∧ t.busy = false := ⟨_, rfl, rfl⟩

theorem witness_ResetLeavesRegistersAndBufUnspecified :
    ∃ t, clockEdge { rst := true } (start [(3, 7)] [(0, 1)]) = .next t ∧ t.buf.read 0 = none := ⟨_, rfl, rfl⟩

theorem inv_of_idle {s : State} (hb : s.buf.wf) (hp : s.rspPending = false) (hr : s.inReset = false) : s.Inv :=
  ⟨hb, by simp [hp], by simp [hr]⟩

/-- A command that stores wrapped bytes, from a state whose BUF has other bytes. -/
theorem witness_EveryStepKeepsTheInvariant :
    ({ start [(3, 255), (4, 16)] [(0, 1), (200, 2)] with inputs := [presentCommand 0x5E234000] } : State).Inv ∧
    ∃ t, step { start [(3, 255), (4, 16)] [(0, 1), (200, 2)] with inputs := [presentCommand 0x5E234000] } = .next t :=
  ⟨inv_of_idle (by decide) rfl rfl, _, rfl⟩

theorem witness_ConstantRegistersCannotChange :
    (Instr.add256 2 3 5).wellFormed = true ∧ (Instr.add256 2 3 5).dest? = some 2 ∧ (2 : Reg).val < 3 ∧
    (next? (exec (.add256 2 3 5) (start []))).map (fun t => (t.rspStatus, val t 2)) =
      some (.error .immutableConstantViolation, 2 ^ 256 - 1) := by decide +kernel

theorem witness_OnlyTheDestinationRegisterChanges :
    (∃ t, exec (.add128 4 1 1) (start [(5, 9)]) = .next t) ∧ (Instr.add128 4 1 1).dest? ≠ some 5 ∧
    (∃ t, exec (.bstle128 5 3 4) (start [(4, 16)]) = .next t) ∧ (Instr.bstle128 5 3 4).dest? ≠ some 5 :=
  ⟨⟨_, rfl⟩, by decide, ⟨_, rfl⟩, by decide⟩

theorem witness_OnlyStoringCommandsChangeBuf :
    (∃ t, exec (.add128 4 1 1) (start [] [(0, 1)]) = .next t) ∧ (Instr.add128 4 1 1).storesBuf = false := ⟨⟨_, rfl⟩, rfl⟩

/-- A store that wraps, and addresses just outside it. -/
theorem witness_StoringCommandsChangeOnlyTheirBytes :
    (∃ t, exec (.bstle128 2 3 4) (start [(3, 255), (4, 16)] [(15, 1)]) = .next t) ∧
    (Instr.bstle128 2 3 4).storesBuf = true ∧
    bytesStored (.bstle128 2 3 4) (start [(3, 255), (4, 16)] [(15, 1)]) = (255, 16) ∧
    (∀ j < 16, 15 ≠ wrapAddr 255 j ∧ 254 ≠ wrapAddr 255 j) ∧
    (∃ t, exec (.fmt256 6 3 4 10) (start [(3, 255), (4, 100)]) = .next t) ∧
    bytesStored (.fmt256 6 3 4 10) (start [(3, 255), (4, 100)]) = (255, 3) :=
  ⟨⟨_, rfl⟩, rfl, by decide +kernel, by decide, ⟨_, rfl⟩, by decide +kernel⟩

theorem witness_CommandsLeaveTheOtherStateAlone : ∃ t, exec (.add128 4 1 1) (start []) = .next t := ⟨_, rfl⟩

theorem witness_ErrorsChangeNothing :
    ∃ t, exec (.div128 4 1 0) (start [(4, 9)]) = .next t ∧ t.rspStatus = .error .divideByZero ∧ t.rspStatus ≠ .ok :=
  ⟨_, rfl, rfl, by decide⟩

/-- A command and a state for each error kind in which it is the only one, or the one of highest priority. -/
theorem witness_ErrorsFollowThePriorityOrder :
    ErrorHolds (.limbget 4 2 4) (start []) .illegalCommand ∧
    ErrorHolds (.parse128 0 0 3 8) (start []) .immutableConstantViolation ∧
    ErrorHolds (.from128 4 3 12) (start []) .unsupportedType ∧
    ErrorHolds (.parse128 5 3 4 2) (start [(4, 257)]) .invalidRadix ∧
    ErrorHolds (.parse128 5 3 4 10) (start [(4, 257)]) .invalidLength ∧
    ErrorHolds (.bldle128 5 3 4) (start [(4, 15)]) .invalidLength ∧
    ErrorHolds (.rem256 5 3 0) (start []) .divideByZero ∧
    (BytesWritten (.parse128 5 3 4 10) (start [(4, 1)] [(0, 0x61)]) ∧
      ErrorHolds (.parse128 5 3 4 10) (start [(4, 1)] [(0, 0x61)]) .invalidCharacter) ∧
    (BytesWritten (.add128 4 1 1) (start []) ∧ ∀ e, ¬ ErrorHolds (.add128 4 1 1) (start []) e) := by
  refine ⟨rfl, ⟨0, rfl, by decide⟩, ⟨12, rfl, by decide⟩, ⟨2, rfl, by decide⟩, .inr ⟨3, 4, 10, rfl, by decide +kernel⟩,
    .inl ⟨4, 16, rfl, by decide +kernel⟩, show divisor? _ _ = some 0 by decide +kernel, ⟨?_, 3, 4, 10, rfl, 0, ?_⟩, ?_, ?_⟩
  · have h : (bytesRead (.parse128 5 3 4 10) (start [(4, 1)] [(0, 0x61)])).2 = 1 := by decide +kernel
    intro j hj
    rw [h] at hj
    obtain rfl : j = 0 := by omega
    decide +kernel
  · exact ⟨by decide +kernel, 0x61, by decide +kernel, by decide⟩
  · intro j hj
    exact absurd hj (by simp [bytesRead])
  · rintro (_ | _) <;> simp [ErrorHolds, divisor?, exactLength?, parsed?, radix?, typeCode?, Instr.dest?, Instr.wellFormed]

/-- A core about to load 16 bytes, the first of which nothing has written. -/
def firstByteMissing : State := start [(3, 240), (4, 16)] (bytesAt 241 (List.replicate 15 0))

/-- A PARSE and a load that stop, and every premise of the third clause for the load. -/
theorem witness_OnlyUnwrittenBytesStopACommand :
    exec (.parse128 5 3 4 10) (start [(4, 1)]) = .fault (.bufByteNeverWritten 0) ∧
    (Instr.bldle128 5 3 4).loadsBuf = true ∧ ¬ BytesWritten (.bldle128 5 3 4) firstByteMissing ∧
    (∀ e, e ≠ .invalidCharacter → ¬ ErrorHolds (.bldle128 5 3 4) firstByteMissing e) ∧
    exec (.bldle128 5 3 4) firstByteMissing = .fault (.bufByteNeverWritten 240) := by
  have hlen : val firstByteMissing 4 = 16 := by decide +kernel
  refine ⟨rfl, rfl, fun h => absurd (h 0 (by decide)) (by decide +kernel), ?_, rfl⟩
  rintro (_ | _) <;>
    simp [ErrorHolds, divisor?, exactLength?, parsed?, radix?, typeCode?, Instr.dest?, Instr.wellFormed, hlen]

/-- Two states that differ in a register the command does not name, in BUF and in the status. -/
theorem witness_ResultDependsOnlyOnTheOperands :
    (∀ r ∈ (Instr.add128 4 3 5).sources,
      readReg (start [(3, 7), (5, 8)]) r = readReg (start [(3, 7), (5, 8), (6, 1)] [(0, 1)]) r) ∧
    (Instr.add128 4 3 5).loadsBuf = false ∧ (∃ t, exec (.add128 4 3 5) (start [(3, 7), (5, 8)]) = .next t) ∧
    (∃ t, exec (.add128 4 3 5) (start [(3, 7), (5, 8), (6, 1)] [(0, 1)]) = .next t) :=
  ⟨by decide +kernel, rfl, ⟨_, rfl⟩, ⟨_, rfl⟩⟩

theorem witness_Results128LeaveTheHighLimbsZero :
    (opOf (encode (.not128 4 3))).toNat / 0x40 = 1 ∧ (Instr.not128 4 3).dest? = some 4 ∧
    ∃ t, exec (.not128 4 3) (start [(4, 2 ^ 255)]) = .next t ∧ t.rspStatus = .ok :=
  ⟨by decide, rfl, _, rfl, rfl⟩

/-- Destinations at both sides of the bound, for every statement whose only hypotheses are `rd.val < 3` and `3 ≤ rd.val`: the
first is turned away, the second written. -/
theorem witness_destinations :
    (2 : Reg).val < 3 ∧ 3 ≤ (3 : Reg).val ∧ 3 ≤ (15 : Reg).val ∧
    (next? (exec (.ldi 2 5) (start []))).map (·.rspStatus) = some (.error .immutableConstantViolation) ∧
    (next? (exec (.ldi 3 5) (start []))).map (fun t => (t.rspStatus, val t 3)) = some (.ok, 5) ∧
    (next? (exec (.ldi 15 5) (start []))).map (fun t => (t.rspStatus, val t 15)) = some (.ok, 5) := by decide +kernel

/-- The divisor is zero in its view and not in the register; and is not zero. -/
theorem witness_Divmod128AndDivmod128x64 :
    low 128 (start [(5, 2 ^ 128)]) 5 = 0 ∧ low 64 (start [(5, 2 ^ 64)]) 5 = 0 ∧ low 128 (start [(5, 2 ^ 64)]) 5 ≠ 0 ∧
    low 64 (start [(5, 3)]) 5 ≠ 0 := by decide +kernel

/-- The first and the last limb index. -/
theorem witness_LdiLimbgetAndLimbset : (3 : Byte).toNat < 4 ∧ (0 : Byte).toNat < 4 := by decide

/-- The first limb index that has no word and the last. -/
theorem witness_LimbIndexAboveThreeIsIllegal : 4 ≤ (4 : Byte).toNat ∧ 4 ≤ (255 : Byte).toNat := by decide

theorem witness_DivAndRem :
    low 128 (start [(5, 2 ^ 128)]) 5 = 0 ∧ val (start []) 0 = 0 ∧ low 128 (start [(5, 7)]) 5 ≠ 0 ∧
    val (start [(5, 2 ^ 128)]) 5 ≠ 0 := by decide +kernel

theorem witness_Muldiv128 : low 128 (start [(6, 2 ^ 128)]) 6 = 0 ∧ low 128 (start [(6, 1)]) 6 ≠ 0 := by decide +kernel

theorem witness_QuotientAndRemainderRebuildTheDividend :
    3 ≤ (3 : Reg).val ∧ low 128 (start [(5, 1)]) 5 ≠ 0 ∧ val (start [(5, 2 ^ 128)]) 5 ≠ 0 := by decide +kernel

theorem witness_AddingMaxThenOneGivesBackTheValue :
    3 ≤ (4 : Reg).val ∧ (∃ t u, exec (.add128 4 3 2) (start [(3, 9)]) = .next t ∧ exec (.add128 4 4 1) t = .next u) ∧
    (∃ t u, exec (.add256 4 3 2) (start [(3, 9)]) = .next t ∧ exec (.add256 4 4 1) t = .next u) :=
  ⟨by decide, ⟨_, _, rfl, rfl⟩, _, _, rfl, rfl⟩

/-- Shift amounts at the bounds of the rule: −1, 0, N − 1, N. -/
theorem witness_ShiftsBySignedAmounts :
    sintOf 64 (low 64 (start []) 2) = -1 ∧ sintOf 64 (low 64 (start [(5, 2 ^ 64)]) 5) = 0 ∧
    sintOf 16 (0x8000 : BitVec 16).toNat = -32768 ∧ sintOf 16 (127 : BitVec 16).toNat = 127 ∧
    sintOf 16 (256 : BitVec 16).toNat = 256 := by decide +kernel

theorem witness_ZeroCounts : low 128 (start [(3, 2 ^ 128)]) 3 = 0 ∧ val (start [(3, 2 ^ 128)]) 3 ≠ 0 := by decide +kernel

theorem witness_CompareIsLexicographicOverLimbs :
    3 ≤ (4 : Reg).val ∧ ∃ t, exec (.cmplt256 4 3 5) (start [(3, 2 ^ 128), (5, 2 ^ 192)]) = .next t := ⟨by decide, _, rfl⟩

/-- A destination that is general, the first type code that names no type and the last. -/
theorem witness_FromIntegersAndOther : 3 ≤ (3 : Reg).val ∧ 12 ≤ (12 : Byte).toNat ∧ 12 ≤ (255 : Byte).toNat := by decide

/-- For each clause a pattern: the largest finite one, then +infinity, in both formats; the first with its sign set. -/
theorem witness_FromFloatTruncatesOrIsOpen :
    3 ≤ (4 : Reg).val ∧
    low 64 (start [(3, 0xFFEFFFFFFFFFFFFF)]) 3 / 2 ^ 52 % 2 ^ 11 ≠ 2047 ∧
    low 64 (start [(3, 0xFFEFFFFFFFFFFFFF)]) 3 / 2 ^ 63 = 1 ∧
    low 32 (start [(3, 0xFF7FFFFF)]) 3 / 2 ^ 23 % 2 ^ 8 ≠ 255 ∧
    low 32 (start [(3, 0xFF7FFFFF)]) 3 / 2 ^ 31 = 1 ∧
    low 64 (start [(3, 0x7FF0000000000000)]) 3 / 2 ^ 52 % 2 ^ 11 = 2047 ∧
    low 32 (start [(3, 0x7F800000)]) 3 / 2 ^ 23 % 2 ^ 8 = 255 := by decide +kernel

theorem witness_ToIntegersAndOther : 3 ≤ (3 : Reg).val ∧ 12 ≤ (12 : Byte).toNat ∧ 12 ≤ (255 : Byte).toNat := by decide

theorem witness_ToDoubleRoundsToNearestEven :
    3 ≤ (4 : Reg).val ∧ ∃ t, exec (.to256 4 2 10) (start []) = .next t := ⟨by decide, _, rfl⟩

/-- The largest value that rounds to a finite pattern and the least that does not. -/
theorem witness_ToSingleRoundsToNearestEvenOrOverflows :
    3 ≤ (4 : Reg).val ∧ low 128 (start [(3, 2 ^ 128 - 2 ^ 103 - 1)]) 3 < 2 ^ 128 - 2 ^ 103 ∧
    ¬ low 128 (start [(3, 2 ^ 128 - 2 ^ 103)]) 3 < 2 ^ 128 - 2 ^ 103 ∧ ¬ val (start []) 2 < 2 ^ 128 - 2 ^ 103 := by
  decide +kernel

/-- The largest values of the bounds; at 128 bits also one whose high limbs are set. -/
theorem witness_FloatRoundTripIsExactBelowThePrecision :
    3 ≤ (4 : Reg).val ∧ low 128 (start [(3, 2 ^ 200 + 2 ^ 53 - 1)]) 3 < 2 ^ 53 ∧
    low 128 (start [(3, 2 ^ 200 + 2 ^ 24 - 1)]) 3 < 2 ^ 24 ∧ val (start [(3, 2 ^ 53 - 1)]) 3 < 2 ^ 53 ∧ val (start [(3, 2 ^ 24 - 1)]) 3 < 2 ^ 24 ∧
    (∃ t u, exec (.to128 4 3 10) (start [(3, 2 ^ 200 + 2 ^ 53 - 1)]) = .next t ∧ exec (.from128 4 4 10) t = .next u) ∧
    (∃ t u, exec (.to256 4 3 10) (start [(3, 2 ^ 53 - 1)]) = .next t ∧ exec (.from256 4 4 10) t = .next u) ∧
    (∃ t u, exec (.to128 4 3 9) (start [(3, 2 ^ 200 + 2 ^ 24 - 1)]) = .next t ∧ exec (.from128 4 4 9) t = .next u) ∧
    (∃ t u, exec (.to256 4 3 9) (start [(3, 2 ^ 24 - 1)]) = .next t ∧ exec (.from256 4 4 9) t = .next u) :=
  ⟨by decide, by decide +kernel, by decide +kernel, by decide +kernel, by decide +kernel, ⟨_, _, rfl, rfl⟩,
    ⟨_, _, rfl, rfl⟩, ⟨_, _, rfl, rfl⟩, _, _, rfl, rfl⟩

/-- Lengths one off and right, and bytes that wrap at 256. -/
theorem witness_LoadsDecodeTheBytes :
    3 ≤ (5 : Reg).val ∧ val (start [(4, 15)]) 4 ≠ 16 ∧ val (start [(4, 2 ^ 128 + 32)]) 4 ≠ 32 ∧
    (val (start [(3, 255), (4, 16)]) 4 = 16 ∧
      ∀ j < 16, (start [(3, 255), (4, 16)] (bytesAt 0 (List.replicate 15 1) ++ [(255, 1)])).buf.read
        ((val (start [(3, 255), (4, 16)]) 3 % 256 + j) % 256) = some 1) ∧
    (val (start [(3, 255), (4, 32)]) 4 = 32 ∧
      ∀ j < 32, (start [(3, 255), (4, 32)] (bytesAt 0 (List.replicate 31 1) ++ [(255, 1)])).buf.read
        ((val (start [(3, 255), (4, 32)]) 3 % 256 + j) % 256) = some 1) := by decide +kernel

/-- Both lengths, a length one off, and an address the access does not reach. -/
theorem witness_StoresEncodeTheBytes :
    (16, Instr.bstle128 2 3 4, Instr.bstbe128 2 3 4) ∈
      [(16, Instr.bstle128 2 3 4, Instr.bstbe128 2 3 4), (32, .bstle256 2 3 4, .bstbe256 2 3 4)] ∧
    (32, Instr.bstle256 2 3 4, Instr.bstbe256 2 3 4) ∈
      [(16, Instr.bstle128 2 3 4, Instr.bstbe128 2 3 4), (32, .bstle256 2 3 4, .bstbe256 2 3 4)] ∧
    val (start [(4, 17)]) 4 ≠ 16 ∧ val (start [(4, 16)]) 4 = 16 ∧ val (start [(4, 32)]) 4 = 32 ∧
    ∀ j < 16, 15 ≠ (val (start [(3, 255), (4, 16)]) 3 % 256 + j) % 256 := by decide +kernel

theorem witness_LoadAfterStoreGivesTheValue :
    3 ≤ (5 : Reg).val ∧ (∃ t, exec (.bstle128 6 3 4) (start [(3, 250), (4, 16), (6, 7)]) = .next t ∧ t.rspStatus = .ok) ∧
    (∃ t, exec (.bstbe128 6 3 4) (start [(3, 250), (4, 16), (6, 7)]) = .next t ∧ t.rspStatus = .ok) ∧
    (∃ t, exec (.bstle256 6 3 4) (start [(3, 250), (4, 32), (6, 7)]) = .next t ∧ t.rspStatus = .ok) ∧
    (∃ t, exec (.bstbe256 6 3 4) (start [(3, 250), (4, 32), (6, 7)]) = .next t ∧ t.rspStatus = .ok) :=
  ⟨by decide, ⟨_, rfl, rfl⟩, ⟨_, rfl, rfl⟩, ⟨_, rfl, rfl⟩, _, rfl, rfl⟩

/-- Radix 8; radix 10 and 16; lengths 257, 0 and 1; a character that is a digit and one that is not. -/
theorem witness_ParseReadsAString :
    3 ≤ (5 : Reg).val ∧ ((8 : Byte).toNat ≠ 10 ∧ (8 : Byte).toNat ≠ 16) ∧
    ((10 : Byte).toNat = 10 ∨ (10 : Byte).toNat = 16) ∧ ((16 : Byte).toNat = 10 ∨ (16 : Byte).toNat = 16) ∧
    256 < val (start [(4, 257)]) 4 ∧ val (start [(4, 0)]) 4 ≤ 256 ∧ val (start [(4, 256)]) 4 ≤ 256 ∧
    (∀ j < val (start [(4, 1)] [(0, 0x61)]) 4,
      (start [(4, 1)] [(0, 0x61)]).buf.read ((val (start [(4, 1)] [(0, 0x61)]) 3 % 256 + j) % 256) = some 0x61) ∧
    digitValue? 10 0x61 = none ∧ digitValue? 16 0x61 = some 10 := by decide +kernel

/-- The bounds of the four clauses. -/
theorem witness_DigitValues :
    (0x30 ≤ (0x39 : Byte).toNat ∧ (0x39 : Byte).toNat ≤ 0x39) ∧ (0x61 ≤ (0x66 : Byte).toNat ∧ (0x66 : Byte).toNat ≤ 0x66) ∧
    (0x41 ≤ (0x46 : Byte).toNat ∧ (0x46 : Byte).toNat ≤ 0x46) ∧
    (∀ c ∈ [0x2F#8, 0x3A#8, 0x40#8, 0x47#8, 0x60#8, 0x67#8],
      (c.toNat < 0x30 ∨ 0x39 < c.toNat) ∧ (c.toNat < 0x61 ∨ 0x66 < c.toNat) ∧ (c.toNat < 0x41 ∨ 0x46 < c.toNat)) := by decide

theorem witness_FormatWritesTheDigits :
    3 ≤ (6 : Reg).val ∧ ((2 : Byte).toNat ≠ 10 ∧ (2 : Byte).toNat ≠ 16) ∧ ((10 : Byte).toNat = 10 ∨ (10 : Byte).toNat = 16) ∧
    (∃ t, exec (.fmt128 6 3 0 10) (start [(3, 255)]) = .next t ∧ t.buf = [(255, 0x30)] ∧ val t 6 = 1) ∧
    (∃ t, exec (.fmt256 6 3 4 16) (start [(3, 255), (4, 0x100)]) = .next t ∧
      t.buf = [(0, 0x30), (1, 0x30), (255, 0x31)] ∧ val t 6 = 3) :=
  ⟨by decide, by decide, by decide, ⟨_, rfl, rfl, rfl⟩, _, rfl, rfl, rfl⟩

theorem witness_ParseAfterFormatGivesTheValue :
    3 ≤ (4 : Reg).val ∧ (5 : Reg) ≠ 3 ∧
    (∃ t, exec (.fmt128 5 3 6 16) (start [(3, 255), (6, 0x1F)]) = .next t ∧ t.rspStatus = .ok) ∧
    (∃ t, exec (.fmt256 5 3 6 10) (start [(3, 255), (6, 31)]) = .next t ∧ t.rspStatus = .ok) :=
  ⟨by decide, by decide, ⟨_, rfl, rfl⟩, _, rfl, rfl⟩

theorem witness_PseudoInstructionMeanings :
    3 ≤ (4 : Reg).val ∧ (next? (exec (Pseudo.expand (.neg128 4 3)) (start [(3, 1)]))).map (fun t => val t 4) =
      some (2 ^ 128 - 1) := by decide +kernel

end Sys2Proof.Tests
end

/-! # Encoding and decoding: the words that are no command (30_encoding.md R78, R79)

The opcode map is looked up by opcode, and its opcodes are distinct; so `decode` is fixed by the one row whose opcode is the
word's, and a word without such a row is reserved. -/

namespace Sys2Proof

/-! ### The opcode map -/

/-- The opcode map fills four ranges of opcodes, in order (R77). -/
theorem opcodeTable_opcodes :
    opcodeTable.map (fun row => row.opcode.toNat) =
      List.range' 0x01 9 ++ List.range' 0x40 34 ++ List.range' 0x80 5 ++ List.range' 0x86 28 := by decide

theorem opcodeTable_opcodes_nodup : (opcodeTable.map (fun row => row.opcode.toNat)).Nodup := by
  rw [opcodeTable_opcodes]; decide

/-- A row is the only one with its opcode (R80). -/
theorem row_eq_of_opcode_eq {row row' : Row} (h : row ∈ opcodeTable) (h' : row' ∈ opcodeTable)
    (he : row.opcode = row'.opcode) : row = row' :=
  List.inj_on_of_nodup_map opcodeTable_opcodes_nodup h h' (congrArg BitVec.toNat he)

theorem exists_row_iff (op : BitVec 8) :
    (∃ row ∈ opcodeTable, row.opcode = op) ↔
      (0x01 ≤ op.toNat ∧ op.toNat ≤ 0x09) ∨ (0x40 ≤ op.toNat ∧ op.toNat ≤ 0x61) ∨
      (0x80 ≤ op.toNat ∧ op.toNat ≤ 0x84) ∨ (0x86 ≤ op.toNat ∧ op.toNat ≤ 0xA1) := by
  have hmem : (∃ row ∈ opcodeTable, row.opcode = op) ↔ op.toNat ∈ opcodeTable.map (fun row => row.opcode.toNat) := by
    simp only [List.mem_map, BitVec.toNat_inj]
  rw [hmem, opcodeTable_opcodes]
  simp only [List.mem_append, List.mem_range'_1]
  omega

theorem rowFor?_some {op : BitVec 8} {row : Row} (h : rowFor? op = some row) : row ∈ opcodeTable ∧ row.opcode = op :=
  ⟨List.mem_of_find?_eq_some h, by simpa using List.find?_some h⟩

theorem rowFor?_eq_none_iff {op : BitVec 8} : rowFor? op = none ↔ ¬ ∃ row ∈ opcodeTable, row.opcode = op := by
  simp [rowFor?]

theorem rowFor?_of_mem {row : Row} (hmem : row ∈ opcodeTable) : rowFor? row.opcode = some row := by
  cases hfind : rowFor? row.opcode with
  | none => exact absurd ⟨row, hmem, rfl⟩ (rowFor?_eq_none_iff.mp hfind)
  | some found =>
    obtain ⟨hfmem, hfop⟩ := rowFor?_some hfind
    rw [row_eq_of_opcode_eq hfmem hmem hfop]

/-! ### What `decode` answers -/

theorem decode_of_row {w : CmdWord} {row : Row} (hmem : row ∈ opcodeTable) (hop : row.opcode = opOf w) :
    decode w = if w &&& row.mask = row.pattern then .ok (row.build w) else .error .reservedFieldNonzero := by
  rw [decode, ← hop, rowFor?_of_mem hmem]

theorem decode_eq_reservedOpcode_iff {w : CmdWord} :
    decode w = .error .reservedOpcode ↔ ¬ ∃ row ∈ opcodeTable, row.opcode = opOf w := by
  constructor
  · rintro h ⟨row, hmem, hop⟩
    rw [decode_of_row hmem hop] at h
    split at h <;> cases h
  · intro h
    rw [decode, rowFor?_eq_none_iff.mpr h]

theorem decode_eq_reservedFieldNonzero_iff {w : CmdWord} {row : Row} (hmem : row ∈ opcodeTable)
    (hop : row.opcode = opOf w) : decode w = .error .reservedFieldNonzero ↔ w &&& row.mask ≠ row.pattern := by
  rw [decode_of_row hmem hop]
  split
  case isTrue h => simp [h]
  case isFalse h => simp [h]

theorem decode_eq_ok_iff {w : CmdWord} {i : Instr} :
    decode w = .ok i ↔
      ∃ row ∈ opcodeTable, row.opcode = opOf w ∧ w &&& row.mask = row.pattern ∧ row.build w = i := by
  constructor
  · intro h
    have hrow : ∃ row ∈ opcodeTable, row.opcode = opOf w := by
      by_contra hnone
      rw [decode_eq_reservedOpcode_iff.mpr hnone] at h
      cases h
    obtain ⟨row, hmem, hop⟩ := hrow
    rw [decode_of_row hmem hop] at h
    split at h
    case isTrue hmask => exact ⟨row, hmem, hop, hmask, Except.ok.inj h⟩
    case isFalse => cases h
  · rintro ⟨row, hmem, hop, hmask, rfl⟩
    rw [decode_of_row hmem hop, if_pos hmask]

end Sys2Proof

namespace Sys2Proof.Machine

/-- A word that does not decode ends with IllegalCommand and changes nothing, whatever the reason (60_exceptions.md R302). -/
theorem acceptCommand_endsWith_illegalCommand {w : CmdWord} {e : DecodeError} (h : decode w = .error e) (s : State) :
    EndsWith (acceptCommand w s) .illegalCommand s := by
  rcases acceptCommand_cases w s with ⟨i, hok, -⟩ | ⟨_, -, hend⟩
  · rw [h] at hok
    cases hok
  · exact hend

/-- Settles O3: the reserved opcodes are the gaps between the four ranges of the opcode map. -/
theorem reservedOpcodesEndWithIllegalCommand : Obligations.ReservedOpcodesEndWithIllegalCommand := by
  intro w s op
  refine ⟨?_, fun h => acceptCommand_endsWith_illegalCommand h s, ?_⟩
  · rw [decode_eq_reservedOpcode_iff, exists_row_iff]
    have hop : op < 256 := (opOf w).isLt
    omega
  · constructor
    · rintro ⟨i, hi⟩
      obtain ⟨row, hmem, hop, hmask, -⟩ := decode_eq_ok_iff.mp hi
      exact ⟨row, hmem, hop, hmask⟩
    · rintro ⟨row, hmem, hop, hmask⟩
      exact ⟨row.build w, decode_eq_ok_iff.mpr ⟨row, hmem, hop, hmask, rfl⟩⟩

/-- Settles O4: the row of the word's opcode is the one `decode` compares the word with. -/
theorem nonzeroReservedFieldEndsWithIllegalCommand : Obligations.NonzeroReservedFieldEndsWithIllegalCommand := by
  intro w s row hmem hop
  have hiff := decode_eq_reservedFieldNonzero_iff hmem hop
  exact ⟨hiff.symm, fun h => acceptCommand_endsWith_illegalCommand (hiff.mpr h) s⟩

end Sys2Proof.Machine

/-! # Encoding: each well-formed command has one word (30_encoding.md R71, R72, R77, R80)

A word is the word of its fields, and a field that a row's mask covers is zero in every word the row accepts; so the row builds
from a word the command whose word it is. -/

namespace Sys2Proof

/-! ### A word is the word of its fields -/

theorem wordR_fields (w : CmdWord) : wordR (opOf w) (rdOf w) (raOf w) (rbOf w) (rcOf w) (auxOf w) = w := by
  apply BitVec.eq_of_toNat_eq
  have hw := w.isLt
  simp only [wordR_toNat, opOf, rdOf, raOf, rbOf, rcOf, auxOf, BitVec.val_toFin, BitVec.extractLsb'_toNat,
    Nat.shiftRight_eq_div_pow]
  omega

/-- The immediate of format I covers the last three fields of format R. -/
theorem wordI_immOf (op : BitVec 8) (rd ra : Reg) (w : CmdWord) :
    wordI op rd ra (immOf w) = wordR op rd ra (rbOf w) (rcOf w) (auxOf w) := by
  apply BitVec.eq_of_toNat_eq
  simp only [wordI_toNat, wordR_toNat, immOf, rbOf, rcOf, auxOf, BitVec.val_toFin, BitVec.extractLsb'_toNat,
    Nat.shiftRight_eq_div_pow]
  omega

/-! ### A field that the mask covers is the field of the pattern -/

theorem raOf_eq_zero_of_mask {w m p : CmdWord} (h : w &&& m = p) (hm : m.extractLsb' 16 4 = BitVec.allOnes 4)
    (hp : raOf p = 0) : raOf w = 0 := by
  rwa [← h, raOf, BitVec.extractLsb'_and, hm, BitVec.and_allOnes] at hp

theorem rbOf_eq_zero_of_mask {w m p : CmdWord} (h : w &&& m = p) (hm : m.extractLsb' 12 4 = BitVec.allOnes 4)
    (hp : rbOf p = 0) : rbOf w = 0 := by
  rwa [← h, rbOf, BitVec.extractLsb'_and, hm, BitVec.and_allOnes] at hp

theorem rcOf_eq_zero_of_mask {w m p : CmdWord} (h : w &&& m = p) (hm : m.extractLsb' 8 4 = BitVec.allOnes 4)
    (hp : rcOf p = 0) : rcOf w = 0 := by
  rwa [← h, rcOf, BitVec.extractLsb'_and, hm, BitVec.and_allOnes] at hp

theorem auxOf_eq_zero_of_mask {w m p : CmdWord} (h : w &&& m = p) (hm : m.extractLsb' 0 8 = BitVec.allOnes 8)
    (hp : auxOf p = 0#8) : auxOf w = 0#8 := by
  rwa [← h, auxOf, BitVec.extractLsb'_and, hm, BitVec.and_allOnes] at hp

/-! ### Decoding, then encoding -/

/-- Every row builds from a word it accepts the command that has that word. -/
theorem encode_build {row : Row} (hmem : row ∈ opcodeTable) {w : CmdWord} (hop : row.opcode = opOf w)
    (hmask : w &&& row.mask = row.pattern) : encode (row.build w) = w := by
  conv_rhs => rw [← wordR_fields w, ← hop]
  clear hop
  revert row
  simp only [opcodeTable, limbRows, arithRows128, bitRows128, restRows128, arithRows256, bitRows256, restRows256,
    List.forall_mem_append, List.forall_mem_cons, List.not_mem_nil, false_implies, implies_true, and_true]
  and_intros
  all_goals
    intro h
    simp (disch := decide) only [encode, wordI_immOf, raOf_eq_zero_of_mask h, rbOf_eq_zero_of_mask h, rcOf_eq_zero_of_mask h,
      auxOf_eq_zero_of_mask h]

/-- A word that decodes is the word of its command: no bit of it is dropped. -/
theorem encode_of_decode {w : CmdWord} {i : Instr} (h : decode w = .ok i) : encode i = w := by
  obtain ⟨row, hmem, hop, hmask, rfl⟩ := decode_eq_ok_iff.mp h
  exact encode_build hmem hop hmask

/-! ### Encoding, then decoding -/

open Laws in
/-- The lemmas of Laws/PerInstr.lean as one. -/
theorem selectsRow (i : Instr) : SelectsRow.Statement i := by
  cases i
  exacts [
    SelectsRow.adc64 _ _ _ _, SelectsRow.sbb64 _ _ _ _, SelectsRow.wmul64 _ _ _, SelectsRow.mac64 _ _ _ _,
    SelectsRow.divmod128 _ _ _, SelectsRow.divmod128x64 _ _ _, SelectsRow.ldi _ _, SelectsRow.limbget _ _ _,
    SelectsRow.limbset _ _ _ _, SelectsRow.add128 _ _ _, SelectsRow.sub128 _ _ _, SelectsRow.mul128 _ _ _,
    SelectsRow.div128 _ _ _, SelectsRow.rem128 _ _ _, SelectsRow.muldiv128 _ _ _ _, SelectsRow.pow128 _ _ _,
    SelectsRow.sqrt128 _ _, SelectsRow.and128 _ _ _, SelectsRow.or128 _ _ _, SelectsRow.xor128 _ _ _,
    SelectsRow.not128 _ _, SelectsRow.shl128 _ _ _, SelectsRow.shr128 _ _ _, SelectsRow.shli128 _ _ _,
    SelectsRow.shri128 _ _ _, SelectsRow.clz128 _ _, SelectsRow.ctz128 _ _, SelectsRow.cmpeq128 _ _ _,
    SelectsRow.cmplt128 _ _ _, SelectsRow.cmple128 _ _ _, SelectsRow.cmpgt128 _ _ _, SelectsRow.cmpge128 _ _ _,
    SelectsRow.inc128 _, SelectsRow.dec128 _, SelectsRow.set128 _ _, SelectsRow.from128 _ _ _, SelectsRow.to128 _ _ _,
    SelectsRow.bldle128 _ _ _, SelectsRow.bldbe128 _ _ _, SelectsRow.bstle128 _ _ _, SelectsRow.bstbe128 _ _ _,
    SelectsRow.parse128 _ _ _ _, SelectsRow.fmt128 _ _ _ _, SelectsRow.add256 _ _ _, SelectsRow.sub256 _ _ _,
    SelectsRow.mul256 _ _ _, SelectsRow.div256 _ _ _, SelectsRow.rem256 _ _ _, SelectsRow.pow256 _ _ _,
    SelectsRow.sqrt256 _ _, SelectsRow.and256 _ _ _, SelectsRow.or256 _ _ _, SelectsRow.xor256 _ _ _,
    SelectsRow.not256 _ _, SelectsRow.shl256 _ _ _, SelectsRow.shr256 _ _ _, SelectsRow.shli256 _ _ _,
    SelectsRow.shri256 _ _ _, SelectsRow.clz256 _ _, SelectsRow.ctz256 _ _, SelectsRow.cmpeq256 _ _ _,
    SelectsRow.cmplt256 _ _ _, SelectsRow.cmple256 _ _ _, SelectsRow.cmpgt256 _ _ _, SelectsRow.cmpge256 _ _ _,
    SelectsRow.inc256 _, SelectsRow.dec256 _, SelectsRow.set256 _ _, SelectsRow.from256 _ _ _, SelectsRow.to256 _ _ _,
    SelectsRow.bldle256 _ _ _, SelectsRow.bldbe256 _ _ _, SelectsRow.bstle256 _ _ _, SelectsRow.bstbe256 _ _ _,
    SelectsRow.parse256 _ _ _ _, SelectsRow.fmt256 _ _ _ _]

/-- The row a command's word selects reads the operands back from their fields. -/
theorem build_encode {i : Instr} {row : Row} (h : rowFor? (opOf (encode i)) = some row) : row.build (encode i) = i := by
  cases i
  all_goals
    simp only [encode, opOf_wordR, opOf_wordI] at h
    cases h -- the lookup of a literal opcode evaluates to its row
    simp only [encode, rdOf_wordR, raOf_wordR, rbOf_wordR, rcOf_wordR, auxOf_wordR, rdOf_wordI, raOf_wordI, immOf_wordI]

theorem decode_encode {i : Instr} (h : i.wellFormed = true) : decode (encode i) = .ok i := by
  obtain ⟨row, hrow, hmask⟩ := selectsRow i h
  obtain ⟨hmem, hop⟩ := rowFor?_some hrow
  rw [decode_of_row hmem hop, if_pos hmask, build_encode hrow]

end Sys2Proof

namespace Sys2Proof.Machine

/-! ### Words as the sums of R83 -/

theorem wordR_eq_cmdR (op : BitVec 8) (rd ra rb rc : Reg) (aux : Byte) :
    wordR op rd ra rb rc aux = cmdR op.toNat rd ra rb rc aux.toNat := by
  rw [cmdR, ← wordR_toNat, BitVec.ofNat_toNat, BitVec.setWidth_eq]

theorem wordI_eq_cmdI (op : BitVec 8) (rd ra : Reg) (imm16 : BitVec 16) :
    wordI op rd ra imm16 = cmdI op.toNat rd ra imm16 := by
  rw [cmdI, ← wordI_toNat, BitVec.ofNat_toNat, BitVec.setWidth_eq]

/-- A well-formed command has exactly one word. -/
theorem hasEncoding_of_encode {i : Instr} {w : CmdWord} (hwf : i.wellFormed = true) (hw : encode i = w) : HasEncoding i w := by
  subst hw
  exact fun w' => ⟨fun h => (encode_of_decode h).symm, fun h => h ▸ decode_encode hwf⟩

end Sys2Proof.Machine

/-! # Limb primitives and value constructors (40_limb.md) -/

namespace Sys2Proof.Machine

/-! ### The rule of a command whose outcome is an error or the value of its destination -/

theorem writes_of_finishReg {o : Result} {rd : Reg} {v : Nat} {s : State}
    (ho : o = finishReg rd (.ok (BitVec.ofNat 256 v)) s) (hrd : 3 ≤ rd.val) : Writes o rd v s :=
  ho.trans (finishReg_ok hrd _ s)

theorem endsWith_of_finishReg {o : Result} {rd : Reg} {e : ErrorKind} {s : State}
    (ho : o = finishReg rd (.error e) s) (hrd : 3 ≤ rd.val) : EndsWith o e s :=
  ho.trans (finishReg_error hrd e s)

theorem endsWith_violation_of_finishReg {o : Result} {rd : Reg} {r : Except ErrorKind Word} {s : State}
    (ho : o = finishReg rd r s) (hrd : rd.val < 3) : EndsWith o .immutableConstantViolation s :=
  ho.trans (finishReg_constant hrd r s)

theorem regRule_of_finishReg {i : Instr} {w : CmdWord} {rd : Reg} {v : State → Nat} (henc : HasEncoding i w)
    (hexec : ∀ s, exec i s = finishReg rd (.ok (BitVec.ofNat 256 (v s))) s) : RegRule i w rd v :=
  ⟨henc, fun s => ⟨endsWith_violation_of_finishReg (hexec s), writes_of_finishReg (hexec s)⟩⟩

theorem regRuleErr_of_finishReg {i : Instr} {w : CmdWord} {rd : Reg} {e : ErrorKind} {fails : State → Prop}
    {v : State → Nat} (r : State → Except ErrorKind Word) (henc : HasEncoding i w)
    (hexec : ∀ s, exec i s = finishReg rd (r s) s) (herror : ∀ s, fails s → r s = .error e)
    (hok : ∀ s, ¬ fails s → r s = .ok (BitVec.ofNat 256 (v s))) : RegRuleErr i w rd e fails v :=
  ⟨henc, fun s => ⟨endsWith_violation_of_finishReg (hexec s),
    fun hrd hf => endsWith_of_finishReg (herror s hf ▸ hexec s) hrd,
    fun hrd hf => writes_of_finishReg (hok s hf ▸ hexec s) hrd⟩⟩

theorem regRuleProp_of_finishReg {i : Instr} {w : CmdWord} {rd : Reg} {p : State → Nat → Prop} (r : State → Word)
    (henc : HasEncoding i w) (hexec : ∀ s, exec i s = finishReg rd (.ok (r s)) s) (hp : ∀ s, p s (r s).toNat) :
    RegRuleProp i w rd p :=
  ⟨henc, fun s => ⟨endsWith_violation_of_finishReg (hexec s), fun hrd => ⟨_, hp s, writes_of_finishReg
    (by rw [hexec, BitVec.ofNat_toNat, BitVec.setWidth_eq]) hrd⟩⟩⟩

/-! ### Operands as numbers -/

@[simp] theorem view_toNat (n : Nat) (s : State) (r : Reg) : (view n s r).toNat = low n s r :=
  BitVec.toNat_setWidth n _

theorem limbOf_toNat (v : Word) (k : Nat) : (limbOf v k).toNat = limbVal v.toNat k := by
  rw [limbOf, limbVal, BitVec.extractLsb'_toNat, Nat.shiftRight_eq_div_pow]

@[simp] theorem limb0_toNat (s : State) (r : Reg) : (limb0 s r).toNat = low 64 s r := by
  rw [limb0, limbOf_toNat, limbVal, mul_zero, pow_zero, Nat.div_one]
  rfl

@[simp] theorem carryBit_toNat (s : State) (r : Reg) : (carryBit s r).toNat = low 1 s r := by
  rw [carryBit, BitVec.getLsbD, Nat.toNat_testBit, pow_zero, Nat.div_one]
  rfl

theorem zext_eq_ofNat {n : Nat} (v : BitVec n) : zext v = BitVec.ofNat 256 v.toNat :=
  (BitVec.ofNat_toNat 256 v).symm

theorem limbIndexOk_iff (k : Byte) : limbIndexOk k = true ↔ k.toNat < 4 := by simp [limbIndexOk]

theorem guardLimbIndex_ok {k : Byte} (hk : k.toNat < 4) (s : State) (o : Result) : guardLimbIndex k s o = o :=
  if_pos ((limbIndexOk_iff k).mpr hk)

/-! ### Quotient and remainder in one register (R105, R106) -/

theorem mod_append_div_eq_ofNat (n d : BitVec 128) :
    (n % d ++ n / d : Word) = BitVec.ofNat 256 (n.toNat % d.toNat * 2 ^ 128 + n.toNat / d.toNat) := by
  rw [← BitVec.toNat_umod, ← BitVec.toNat_udiv, ← Nat.shiftLeft_eq, Nat.shiftLeft_add_eq_or_of_lt (BitVec.isLt _),
    ← BitVec.toNat_append, BitVec.ofNat_toNat, BitVec.setWidth_eq]

/-- The common rule of DIVMOD128 and DIVMOD128X64, which differ in the divisor's view. -/
theorem regRuleErr_of_divmodOp {i : Instr} {w : CmdWord} {rd : Reg} {n d : State → BitVec 128} {a b : State → Nat}
    (henc : HasEncoding i w) (hexec : ∀ s, exec i s = divmodOp rd (n s) (d s) s) (hn : ∀ s, (n s).toNat = a s)
    (hd : ∀ s, (d s).toNat = b s) :
    RegRuleErr i w rd .divideByZero (fun s => b s = 0) (fun s => a s % b s * 2 ^ 128 + a s / b s) := by
  have hzero : ∀ s, d s = 0 ↔ b s = 0 := fun s => by rw [← hd, ← BitVec.toNat_inj, BitVec.ofNat_eq_ofNat, BitVec.toNat_zero]
  refine regRuleErr_of_finishReg _ henc hexec (fun s h => if_pos ((hzero s).mpr h)) fun s h => ?_
  rw [if_neg (mt (hzero s).mp h), mod_append_div_eq_ofNat, hn, hd]

/-! ### One limb replaced (R109) -/

@[simp] theorem getLsbD_zext {n : Nat} (v : BitVec n) (i : Nat) :
    (zext v).getLsbD i = (decide (i < 256) && v.getLsbD i) := BitVec.getLsbD_setWidth ..

@[simp] theorem getLsbD_limbOf (v : Word) (k i : Nat) :
    (limbOf v k).getLsbD i = (decide (i < 64) && v.getLsbD (64 * k + i)) := BitVec.getLsbD_extractLsb' ..

/-- Bits `64k` to `64k+63` are the limb's; every other bit is the old one. -/
theorem getLsbD_setLimb (v : Word) (k : Nat) (l : Limb) {i : Nat} (hi : i < 256) :
    (setLimb v k l).getLsbD i = if 64 * k ≤ i ∧ i < 64 * k + 64 then l.getLsbD (i - 64 * k) else v.getLsbD i := by
  have hoff : i - 64 * k < 256 := by omega
  rw [setLimb]
  simp only [BitVec.getLsbD_or, BitVec.getLsbD_and, BitVec.getLsbD_not, BitVec.getLsbD_shiftLeft, getLsbD_zext,
    BitVec.getLsbD_allOnes, hi, hoff, decide_true, Bool.true_and]
  by_cases hlow : i < 64 * k
  · simp [hlow, Nat.not_le.mpr hlow]
  · by_cases hhigh : i - 64 * k < 64
    · simp [hlow, hhigh, show 64 * k ≤ i ∧ i < 64 * k + 64 by omega]
    · simp [hlow, hhigh, BitVec.getLsbD_of_ge l _ (Nat.not_lt.mp hhigh), show ¬ i < 64 * k + 64 by omega]

theorem limbOf_setLimb_self (v : Word) {k : Nat} (hk : k < 4) (l : Limb) : limbOf (setLimb v k l) k = l := by
  apply BitVec.eq_of_getLsbD_eq
  intro i hi
  rw [getLsbD_limbOf, getLsbD_setLimb _ _ _ (by omega), if_pos (by omega), Nat.add_sub_cancel_left, decide_eq_true hi,
    Bool.true_and]

theorem limbOf_setLimb_other (v : Word) {j k : Nat} (hj : j < 4) (hjk : j ≠ k) (l : Limb) :
    limbOf (setLimb v k l) j = limbOf v j := by
  apply BitVec.eq_of_getLsbD_eq
  intro i hi
  rw [getLsbD_limbOf, getLsbD_limbOf, getLsbD_setLimb _ _ _ (by omega), if_neg (by omega)]

/-! ### The commands -/

/-- Settles O27: the packed values are the spec's sums by definition, once the operands are read as numbers. -/
theorem adc64AndSbb64 : Obligations.Adc64AndSbb64 := by
  intro rd ra rb rc
  refine ⟨regRule_of_finishReg (hasEncoding_of_encode rfl (wordR_eq_cmdR ..)) fun s => ?_,
    regRule_of_finishReg (hasEncoding_of_encode rfl (wordR_eq_cmdR ..)) fun s => ?_⟩
  · rw [exec, execAdc64, addWithCarry, limb0_toNat, limb0_toNat, carryBit_toNat]
  · simp only [exec, execSbb64, subWithBorrow, wrapInt, limb0_toNat, carryBit_toNat]

/-- Settles O29: both commands are `divmodOp`, each with its own view of the divisor. -/
theorem divmod128AndDivmod128x64 : Obligations.Divmod128AndDivmod128x64 := by
  intro rd ra rb
  have hwide : ∀ s, ((limb0 s rb).setWidth 128).toNat = low 64 s rb := fun s => by
    rw [BitVec.toNat_setWidth_of_le (by decide), limb0_toNat]
  exact ⟨regRuleErr_of_divmodOp (hasEncoding_of_encode rfl (wordR_eq_cmdR ..)) (fun _ => rfl)
      (fun s => view_toNat 128 s ra) (fun s => view_toNat 128 s rb),
    regRuleErr_of_divmodOp (hasEncoding_of_encode rfl (wordR_eq_cmdR ..)) (fun _ => rfl)
      (fun s => view_toNat 128 s ra) hwide⟩

/-- Settles O30: LDI and LIMBGET zero-extend a field; LIMBSET's value is known by its four limbs. -/
theorem ldiLimbgetAndLimbset : Obligations.LdiLimbgetAndLimbset := by
  refine ⟨fun rd imm16 => ?_, fun rd ra rb k hk => ⟨?_, ?_⟩⟩
  · exact regRule_of_finishReg (hasEncoding_of_encode rfl (wordI_eq_cmdI ..)) fun s => by
      rw [exec, execLdi, zext_eq_ofNat]
  · exact regRule_of_finishReg (hasEncoding_of_encode ((limbIndexOk_iff k).mpr hk) (wordR_eq_cmdR ..)) fun s => by
      rw [exec, execLimbget, guardLimbIndex_ok hk, zext_eq_ofNat, limbOf_toNat, val]
  · refine regRuleProp_of_finishReg (fun s => setLimb (readReg s ra) k.toNat (limb0 s rb))
      (hasEncoding_of_encode ((limbIndexOk_iff k).mpr hk) (wordR_eq_cmdR ..))
      (fun s => guardLimbIndex_ok hk s _) fun s => ⟨BitVec.isLt _, ?_, fun j hj hjk => ?_⟩
    · rw [← limbOf_toNat, limbOf_setLimb_self _ hk, limb0_toNat]
    · rw [← limbOf_toNat, limbOf_setLimb_other _ hj hjk, limbOf_toNat, val]

end Sys2Proof.Machine

/-! # Wraparound arithmetic (41_arith.md) -/

namespace Sys2Proof.Machine

/-! ### The rule of a command whose outcome is a zero-extended N-bit result -/

theorem regRule_of_zext {i : Instr} {w : CmdWord} {rd : Reg} {n : Nat} {f : State → BitVec n} {v : State → Nat}
    (henc : HasEncoding i w) (hexec : ∀ s, exec i s = finishReg rd (.ok (zext (f s))) s) (hv : ∀ s, (f s).toNat = v s) :
    RegRule i w rd v :=
  regRule_of_finishReg henc fun s => by rw [hexec, zext_eq_ofNat, hv]

/-- The common rule of the dividing commands: the divisor `d` is tested in its N-bit view (R127 to R131). -/
theorem regRuleErr_of_divisor {i : Instr} {w : CmdWord} {rd : Reg} {n : Nat} {d f : State → BitVec n} {b v : State → Nat}
    (henc : HasEncoding i w)
    (hexec : ∀ s, exec i s = finishReg rd (if d s = 0 then .error .divideByZero else .ok (zext (f s))) s)
    (hd : ∀ s, (d s).toNat = b s) (hv : ∀ s, (f s).toNat = v s) :
    RegRuleErr i w rd .divideByZero (fun s => b s = 0) v := by
  have hzero : ∀ s, d s = 0 ↔ b s = 0 := fun s => by rw [← hd, ← BitVec.toNat_inj, BitVec.ofNat_eq_ofNat, BitVec.toNat_zero]
  refine regRuleErr_of_finishReg _ henc hexec (fun s h => if_pos ((hzero s).mpr h)) fun s h => ?_
  rw [if_neg (mt (hzero s).mp h), zext_eq_ofNat, hv]

/-! ### Operands and results as numbers -/

/-- The 256-bit view of a register is the whole register. -/
@[simp] theorem low_256 (s : State) (r : Reg) : low 256 s r = val s r := Nat.mod_eq_of_lt (readReg s r).isLt

theorem view_256_toNat (s : State) (r : Reg) : (view 256 s r).toNat = val s r := by rw [view_toNat, low_256]

theorem low_lt (w : Nat) (s : State) (r : Reg) : low w s r < 2 ^ w := Nat.mod_lt _ (Nat.two_pow_pos w)

theorem wrapInt_natCast (w a : Nat) : wrapInt w a = a % 2 ^ w := by
  rw [wrapInt]; norm_cast

theorem wrapInt_congr {w : Nat} {a b : Int} (h : a ≡ b [ZMOD 2 ^ w]) : wrapInt w a = wrapInt w b := by
  rw [wrapInt, wrapInt, h]

theorem natCast_wrapInt (w : Nat) (t : Int) : (wrapInt w t : Int) = t % 2 ^ w :=
  Int.toNat_of_nonneg (Int.emod_nonneg t (by positivity))

/-- Subtraction of bit vectors is the difference reduced into `[0, 2^n)` (R123, R124). -/
theorem toNat_sub_eq_wrapInt {n : Nat} (a b : BitVec n) : (a - b).toNat = wrapInt n ((a.toNat : Int) - b.toNat) := by
  have hb : b.toNat ≤ 2 ^ n := b.isLt.le
  rw [BitVec.toNat_sub, ← wrapInt_natCast]
  apply wrapInt_congr
  push_cast [hb]
  rw [Int.modEq_iff_dvd]
  exact ⟨-1, by ring⟩

/-! ### Carry and borrow chains (R122, R124)

Sum and difference split at limb `k`: what the lower limbs hand on is the carry or the borrow into it. -/

theorem limbVal_lt (v k : Nat) : limbVal v k < 2 ^ 64 := Nat.mod_lt _ (by decide)

/-- The limbs up to limb `k` are those below it and limb `k` itself. -/
theorem mod_limbs_succ (v k : Nat) : v % 2 ^ (64 * (k + 1)) = v % 2 ^ (64 * k) + 2 ^ (64 * k) * limbVal v k := by
  rw [Nat.mul_succ, pow_add, Nat.mod_mul, limbVal]

theorem limbVal_mod_256 (v : Nat) {k : Nat} (hk : k < 4) : limbVal (v % 2 ^ 256) k = limbVal v k := by
  have hexp : 256 = 64 * k + 64 * (4 - k) := by omega
  rw [limbVal, hexp, pow_add, Nat.mod_mul_right_div_self, Nat.mod_mod_of_dvd _ (pow_dvd_pow 2 (by omega)), limbVal]

/-- The carry out of the limbs below limb `k` of a sum. -/
def carryInto (x y k : Nat) : Nat := (x % 2 ^ (64 * k) + y % 2 ^ (64 * k)) / 2 ^ (64 * k)

theorem carryInto_zero (x y : Nat) : carryInto x y 0 = 0 := by simp [carryInto, Nat.mod_one]

theorem carryInto_le_one (x y k : Nat) : carryInto x y k ≤ 1 := by
  have hpos := Nat.two_pow_pos (64 * k)
  have hx := Nat.mod_lt x hpos
  have hy := Nat.mod_lt y hpos
  exact Nat.le_of_lt_succ ((Nat.div_lt_iff_lt_mul hpos).mpr (by omega))

/-- Whatever stands above the lower limbs (`a`, `b`), their sum hands on the carry. -/
theorem add_div_limbs (x y k a b : Nat) :
    (x % 2 ^ (64 * k) + 2 ^ (64 * k) * a + (y % 2 ^ (64 * k) + 2 ^ (64 * k) * b)) / 2 ^ (64 * k) =
      a + b + carryInto x y k := by
  rw [add_add_add_comm, ← mul_add, Nat.add_mul_div_left _ _ (Nat.two_pow_pos _), add_comm, carryInto]

theorem carryInto_succ (x y k : Nat) :
    carryInto x y (k + 1) = if 2 ^ 64 ≤ limbVal x k + limbVal y k + carryInto x y k then 1 else 0 := by
  have hdiv : carryInto x y (k + 1) = (limbVal x k + limbVal y k + carryInto x y k) / 2 ^ 64 := by
    rw [← add_div_limbs, ← mod_limbs_succ, ← mod_limbs_succ, Nat.div_div_eq_div_mul, ← pow_add, ← Nat.mul_succ, carryInto]
  have hc := carryInto_le_one x y k
  have hx := limbVal_lt x k
  have hy := limbVal_lt y k
  rw [hdiv]
  split <;> omega

/-- Limb `k` of a sum is the sum of the limbs and the carry into them. -/
theorem limbVal_add (x y k : Nat) : limbVal (x + y) k = (limbVal x k + limbVal y k + carryInto x y k) % 2 ^ 64 := by
  have hdiv := add_div_limbs x y k (x / 2 ^ (64 * k)) (y / 2 ^ (64 * k))
  rw [Nat.mod_add_div, Nat.mod_add_div] at hdiv
  rw [limbVal, hdiv, limbVal, limbVal]
  omega

/-- The borrow out of the limbs below limb `k` of a difference. -/
def borrowInto (x y k : Nat) : Nat := if x % 2 ^ (64 * k) < y % 2 ^ (64 * k) then 1 else 0

theorem borrowInto_zero (x y : Nat) : borrowInto x y 0 = 0 := by simp [borrowInto, Nat.mod_one]

/-- The difference of the lower limbs is negative by less than one of limb `k`: its floor quotient is the borrow. -/
theorem sub_ediv_lower_limbs (x y k : Nat) :
    ((x % 2 ^ (64 * k) : Nat) - (y % 2 ^ (64 * k) : Nat) : Int) / (2 ^ (64 * k) : Nat) = -borrowInto x y k := by
  have hpos := Nat.two_pow_pos (64 * k)
  have hx := Nat.mod_lt x hpos
  have hy := Nat.mod_lt y hpos
  rw [Int.ediv_eq_iff_of_pos (by omega), borrowInto]
  generalize x % 2 ^ (64 * k) = xlow at *
  generalize y % 2 ^ (64 * k) = ylow at *
  generalize 2 ^ (64 * k) = p at *
  split <;> push_cast <;> omega

/-- Whatever stands above the lower limbs (`a`, `b`), their difference hands on the borrow. -/
theorem sub_ediv_limbs (x y k a b : Nat) :
    ((x % 2 ^ (64 * k) + 2 ^ (64 * k) * a : Nat) - (y % 2 ^ (64 * k) + 2 ^ (64 * k) * b : Nat) : Int) /
      (2 ^ (64 * k) : Nat) = a - b - borrowInto x y k := by
  have hpos : ((2 ^ (64 * k) : Nat) : Int) ≠ 0 := by positivity
  rw [Nat.cast_add, Nat.cast_add, Nat.cast_mul, Nat.cast_mul, add_sub_add_comm, ← mul_sub,
    Int.add_mul_ediv_left _ _ hpos, sub_ediv_lower_limbs]
  ring

theorem borrowInto_succ (x y k : Nat) :
    borrowInto x y (k + 1) = if (limbVal x k : Int) - limbVal y k - borrowInto x y k < 0 then 1 else 0 := by
  have hpos : (0 : Int) < (2 ^ (64 * k) : Nat) := by positivity
  rw [← sub_ediv_limbs, ← mod_limbs_succ, ← mod_limbs_succ, borrowInto]
  simp only [Int.ediv_lt_iff_lt_mul hpos, zero_mul, sub_neg, Nat.cast_lt]

theorem limbVal_wrapInt_256 (z : Int) {k : Nat} (hk : k < 4) :
    limbVal (wrapInt 256 z) k = wrapInt 64 (z / (2 ^ (64 * k) : Nat)) := by
  have hpos : ((2 ^ (64 * k) : Nat) : Int) ≠ 0 := by positivity
  have hexp : 256 = 64 * k + 64 * (4 - k) := by omega
  have hsplit : (2 : Int) ^ 256 = (2 ^ (64 * k) : Nat) * 2 ^ (64 * (4 - k)) := by
    rw [Nat.cast_pow, Nat.cast_ofNat, ← pow_add, ← hexp]
  have hdiv : z / (2 ^ (64 * k) : Nat) = (wrapInt 256 z / 2 ^ (64 * k) : Nat) + 2 ^ (64 * (4 - k)) * (z / 2 ^ 256) := by
    conv_lhs => rw [← Int.emod_add_mul_ediv z (2 ^ 256), ← natCast_wrapInt, hsplit, mul_assoc]
    rw [Int.add_mul_ediv_left _ _ hpos, Int.natCast_ediv, hsplit]
  rw [hdiv, limbVal, ← wrapInt_natCast]
  apply wrapInt_congr
  rw [Int.modEq_iff_dvd, add_sub_cancel_left]
  exact Dvd.dvd.mul_right (pow_dvd_pow 2 (by omega)) _

/-- Limb `k` of a wrapped difference is the wrapped difference of the limbs and the borrow from them. -/
theorem limbVal_sub (x y : Nat) {k : Nat} (hk : k < 4) :
    limbVal (wrapInt 256 ((x : Int) - y)) k = wrapInt 64 ((limbVal x k : Int) - limbVal y k - borrowInto x y k) := by
  have hdiv := sub_ediv_limbs x y k (x / 2 ^ (64 * k)) (y / 2 ^ (64 * k))
  rw [Nat.mod_add_div, Nat.mod_add_div] at hdiv
  rw [limbVal_wrapInt_256 _ hk, hdiv, limbVal, limbVal]
  apply wrapInt_congr
  push_cast
  exact ((Int.mod_modEq _ _).symm.sub (Int.mod_modEq _ _).symm).sub_right _

/-! ### Limb products (R126) -/

theorem mod_limbs_eq_sum (v n : Nat) : v % 2 ^ (64 * n) = ∑ i ∈ Finset.range n, limbVal v i * 2 ^ (64 * i) := by
  induction n with
  | zero => simp [Nat.mod_one]
  | succ n ih => rw [mod_limbs_succ, Finset.sum_range_succ, ih, mul_comm (limbVal v n)]

theorem mul_modEq_schoolbook (x y : Nat) :
    x * y ≡ ∑ i ∈ Finset.range 4, ∑ j ∈ Finset.range 4,
      if i + j ≤ 3 then limbVal x i * limbVal y j * 2 ^ (64 * (i + j)) else 0 [MOD 2 ^ 256] := by
  have hlimbs : ∀ v : Nat, v ≡ ∑ i ∈ Finset.range 4, limbVal v i * 2 ^ (64 * i) [MOD 2 ^ 256] := fun v => by
    rw [← mod_limbs_eq_sum]
    exact (Nat.mod_modEq v _).symm
  refine ((hlimbs x).mul (hlimbs y)).trans ?_
  rw [Finset.sum_mul_sum]
  refine Nat.ModEq.sum fun i _ => Nat.ModEq.sum fun j _ => ?_
  have hterm : limbVal x i * 2 ^ (64 * i) * (limbVal y j * 2 ^ (64 * j)) = limbVal x i * limbVal y j * 2 ^ (64 * (i + j)) := by
    ring
  rw [hterm]
  split
  case isTrue => rfl
  case isFalse h => exact (Nat.modEq_zero_iff_dvd).mpr (Dvd.dvd.mul_left (pow_dvd_pow 2 (by omega)) _)

/-! ### Powers by a signed exponent (R132) -/

theorem sint64_eq_sintOf (s : State) (r : Reg) : sint64 s r = sintOf 64 (low 64 s r) := by
  rw [sint64, BitVec.toInt_eq_toNat_cond, limb0_toNat, sintOf]
  exact if_congr (by omega) rfl rfl

theorem sintOf_64_lt {v : Nat} (hv : v < 2 ^ 64) : sintOf 64 v < 2 ^ 64 := by
  rw [sintOf]
  split <;> omega

theorem powWrap_toNat {n : Nat} (hn : 0 < n) (a : BitVec n) {e : Int} (he : e < 2 ^ 64) :
    (powWrap n a e).toNat = powNat n a.toNat e := by
  rw [powWrap, powNat]
  split
  case isTrue => rfl
  case isFalse =>
    split
    case isTrue => exact BitVec.toNat_one hn
    case isFalse => rw [BitVec.toNat_ofNat, powMod_eq (Nat.two_pow_pos n) _ (by omega), Nat.mod_mod]

/-! ### Square roots (R135, R136) -/

theorem zext_toNat {n : Nat} (hn : n ≤ 256) (v : BitVec n) : (zext v).toNat = v.toNat := BitVec.toNat_setWidth_of_le hn

/-- The root fits the width of its operand, so writing it at that width loses nothing. -/
theorem isqrt_ofNat_spec {n : Nat} (hn : n = 2 * (n / 2)) (a : BitVec n) :
    (BitVec.ofNat n (isqrt n a.toNat)).toNat ^ 2 ≤ a.toNat ∧
      a.toNat < ((BitVec.ofNat n (isqrt n a.toNat)).toNat + 1) ^ 2 := by
  have hspec := isqrt_spec hn a.isLt
  have hlt : isqrt n a.toNat < 2 ^ n := lt_of_le_of_lt ((Nat.le_self_pow two_ne_zero _).trans hspec.1) a.isLt
  rwa [BitVec.toNat_ofNat, Nat.mod_eq_of_lt hlt]

/-! ### The commands -/

/-- Settles O31: addition and subtraction of bit vectors wrap, and the chains are `carryInto` and `borrowInto`. -/
theorem addAndSubWrap : Obligations.AddAndSubWrap := by
  intro rd ra rb
  refine ⟨regRule_of_zext (hasEncoding_of_encode rfl (wordR_eq_cmdR ..)) (fun _ => rfl) fun s => ?_,
    regRule_of_zext (hasEncoding_of_encode rfl (wordR_eq_cmdR ..)) (fun _ => rfl) fun s => ?_,
    regRule_of_zext (hasEncoding_of_encode rfl (wordR_eq_cmdR ..)) (fun _ => rfl) fun s => ?_,
    regRule_of_zext (hasEncoding_of_encode rfl (wordR_eq_cmdR ..)) (fun _ => rfl) fun s => ?_,
    fun s => ⟨carryInto (val s ra) (val s rb), carryInto_zero _ _, fun k hk => ⟨carryInto_succ _ _ k, ?_⟩⟩,
    fun s => ⟨borrowInto (val s ra) (val s rb), borrowInto_zero _ _, fun k hk => ⟨borrowInto_succ _ _ k, limbVal_sub _ _ hk⟩⟩⟩
  · rw [BitVec.toNat_add, view_toNat, view_toNat]
  · rw [BitVec.toNat_add, view_256_toNat, view_256_toNat]
  · rw [toNat_sub_eq_wrapInt, view_toNat, view_toNat]
  · rw [toNat_sub_eq_wrapInt, view_256_toNat, view_256_toNat]
  · rw [limbVal_mod_256 _ hk, limbVal_add]

/-- Settles O32: in the product of the two sums of limbs, the terms with i + j above 3 are multiples of 2^256. -/
theorem mulWraps : Obligations.MulWraps := by
  intro rd ra rb
  refine ⟨regRule_of_zext (hasEncoding_of_encode rfl (wordR_eq_cmdR ..)) (fun _ => rfl) fun s => ?_,
    regRule_of_zext (hasEncoding_of_encode rfl (wordR_eq_cmdR ..)) (fun _ => rfl) fun s => ?_,
    fun s => mul_modEq_schoolbook _ _⟩
  · rw [BitVec.toNat_mul, view_toNat, view_toNat]
  · rw [BitVec.toNat_mul, view_256_toNat, view_256_toNat]

/-- Settles O33: the four commands divide bit vectors as numbers. -/
theorem divAndRem : Obligations.DivAndRem := by
  intro rd ra rb
  refine ⟨regRuleErr_of_divisor (hasEncoding_of_encode rfl (wordR_eq_cmdR ..)) (fun _ => rfl)
      (fun s => view_toNat 128 s rb) fun s => ?_,
    regRuleErr_of_divisor (hasEncoding_of_encode rfl (wordR_eq_cmdR ..)) (fun _ => rfl)
      (fun s => view_256_toNat s rb) fun s => ?_,
    regRuleErr_of_divisor (hasEncoding_of_encode rfl (wordR_eq_cmdR ..)) (fun _ => rfl)
      (fun s => view_toNat 128 s rb) fun s => ?_,
    regRuleErr_of_divisor (hasEncoding_of_encode rfl (wordR_eq_cmdR ..)) (fun _ => rfl)
      (fun s => view_256_toNat s rb) fun s => ?_⟩
  · rw [BitVec.toNat_udiv, view_toNat, view_toNat]
  · rw [BitVec.toNat_udiv, view_256_toNat, view_256_toNat]
  · rw [BitVec.toNat_umod, view_toNat, view_toNat]
  · rw [BitVec.toNat_umod, view_256_toNat, view_256_toNat]

/-- Settles O34: the quotient is cut to 128 bits only at the end; no row of the opcode map has the opcode 0x85. -/
theorem muldiv128 : Obligations.Muldiv128 := by
  intro rd ra rb rc
  refine ⟨regRuleErr_of_divisor (hasEncoding_of_encode rfl (wordR_eq_cmdR ..)) (fun _ => rfl)
    (fun s => view_toNat 128 s rc) fun s => ?_, fun w hop => ?_⟩
  · rw [BitVec.toNat_ofNat, view_toNat, view_toNat, view_toNat]
  · rw [decode_eq_reservedOpcode_iff, exists_row_iff]
    omega

/-- Settles O35: square and multiply over 64 bits is the power, for every exponent of 64 bits. -/
theorem powWraps : Obligations.PowWraps := by
  intro rd ra rb
  have hexp : ∀ s, sint64 s rb < 2 ^ 64 := fun s => sint64_eq_sintOf s rb ▸ sintOf_64_lt (low_lt 64 s rb)
  refine ⟨?_, ?_⟩
  all_goals refine regRule_of_zext (hasEncoding_of_encode rfl (wordR_eq_cmdR ..)) (fun _ => rfl) fun s => ?_
  · rw [powWrap_toNat (by decide) _ (hexp s), view_toNat, sint64_eq_sintOf]
  · rw [powWrap_toNat (by decide) _ (hexp s), view_256_toNat, sint64_eq_sintOf]

/-- Settles O36: the loop ends at the floor square root, which fits the width. -/
theorem sqrtIsTheFloorSquareRoot : Obligations.SqrtIsTheFloorSquareRoot := by
  intro rd ra
  refine ⟨?_, ?_⟩
  all_goals refine regRuleProp_of_finishReg _ (hasEncoding_of_encode rfl (wordR_eq_cmdR ..)) (fun _ => rfl) fun s => ?_
  · rw [zext_toNat (by decide), ← view_toNat 128 s ra]
    exact isqrt_ofNat_spec rfl _
  · rw [zext_toNat (by decide), ← view_256_toNat]
    exact isqrt_ofNat_spec rfl _

/-- Settles O37: INC and DEC add and subtract One as bit vectors. -/
theorem incAndDecWrap : Obligations.IncAndDecWrap := by
  intro rd
  refine ⟨?_, ?_, ?_, ?_⟩
  all_goals refine regRule_of_zext (hasEncoding_of_encode rfl (wordR_eq_cmdR ..)) (fun _ => rfl) fun s => ?_
  · rw [BitVec.toNat_add, view_toNat]; rfl
  · rw [BitVec.toNat_add, view_256_toNat]; rfl
  · rw [toNat_sub_eq_wrapInt, view_toNat]; rfl
  · rw [toNat_sub_eq_wrapInt, view_256_toNat]; rfl

end Sys2Proof.Machine

/-! # Bitwise commands, shifts, zero counts, comparisons, set (42_bitwise_shift_compare.md) -/

namespace Sys2Proof.Machine

/-! ### Shifts by signed amounts (R169) -/

theorem sint16_eq_sintOf (imm16 : BitVec 16) : sint16 imm16 = sintOf 16 imm16.toNat := by
  rw [sint16, BitVec.toInt_eq_toNat_cond, sintOf]
  exact if_congr (by omega) rfl rfl

/-- The model shifts by every amount below N; the rule keeps the amount 0 apart, by which a shift (`shifted`, of the number
`v`) changes nothing. -/
theorem toNat_shift_by_cases {n a v : Nat} {shifted : BitVec n} {amount : Int} (hn : 0 < n) (hv : shifted.toNat = v)
    (hzero : amount = 0 → v = a) :
    (if amount < 0 then 0 else if amount ≥ n then 0 else shifted : BitVec n).toNat =
      if amount < 0 then 0 else if amount = 0 then a else if amount ≤ n - 1 then v else 0 := by
  split
  case isTrue => rfl
  case isFalse =>
    by_cases h : amount = 0
    · rw [if_neg (by omega), if_pos h, hv, hzero h]
    · by_cases hbig : amount ≥ n
      · rw [if_pos hbig, if_neg h, if_neg (by omega)]; rfl
      · rw [if_neg hbig, if_neg h, if_pos (by omega), hv]

theorem shlSigned_toNat {n : Nat} (hn : 0 < n) (a : BitVec n) (amount : Int) :
    (shlSigned a amount).toNat = shlNat n a.toNat amount := by
  refine toNat_shift_by_cases hn (by rw [BitVec.toNat_shiftLeft, Nat.shiftLeft_eq]) fun h => ?_
  rw [h, Int.toNat_zero, pow_zero, mul_one, Nat.mod_eq_of_lt a.isLt]

theorem shrSigned_toNat {n : Nat} (hn : 0 < n) (a : BitVec n) (amount : Int) :
    (shrSigned a amount).toNat = shrNat n a.toNat amount := by
  refine toNat_shift_by_cases hn (by rw [BitVec.toNat_ushiftRight, Nat.shiftRight_eq_div_pow]) fun h => ?_
  rw [h, Int.toNat_zero, pow_zero, Nat.div_one]

/-- The common rule of the shifts by a register: `f` on bit vectors is `g` on their numbers. -/
theorem regRule_of_signedAmountOp {i : Instr} {w : CmdWord} {rd ra rb : Reg} {n : Nat} {f : BitVec n → Int → BitVec n}
    {g : Nat → Int → Nat} (hf : ∀ a amount, (f a amount).toNat = g a.toNat amount) (henc : HasEncoding i w)
    (hexec : ∀ s, exec i s = signedAmountOp n f rd ra rb s) :
    RegRule i w rd (fun s => g (low n s ra) (sintOf 64 (low 64 s rb))) :=
  regRule_of_zext henc hexec fun s => by rw [hf, view_toNat, sint64_eq_sintOf]

/-- The common rule of the shifts by an immediate: `f` on bit vectors is `g` on their numbers. -/
theorem regRule_of_immAmountOp {i : Instr} {w : CmdWord} {rd ra : Reg} {imm16 : BitVec 16} {n : Nat}
    {f : BitVec n → Int → BitVec n} {g : Nat → Int → Nat} (hf : ∀ a amount, (f a amount).toNat = g a.toNat amount)
    (henc : HasEncoding i w) (hexec : ∀ s, exec i s = immAmountOp n f rd ra imm16 s) :
    RegRule i w rd (fun s => g (low n s ra) (sintOf 16 imm16.toNat)) :=
  regRule_of_zext henc hexec fun s => by rw [hf, view_toNat, sint16_eq_sintOf]

/-! ### Zero counts (R178 to R181) -/

theorem bitlen_eq_size (v : Nat) : bitlen v = v.size := by
  refine le_antisymm (bitlen_le v.lt_size_self) (Nat.size_le.mpr ?_)
  by_cases hv : v = 0
  · rw [hv, bitlen_zero]; decide
  · exact (bitlen_spec hv).2

theorem ctz_le {n : Nat} (a : BitVec n) : ctz a ≤ n := by
  by_cases ha : a = 0
  · rw [ha, ctz_zero]
  · exact (ctz_spec ha).1.le

/-- Below the lowest set bit all bits are clear, so its place is the exponent of the greatest power of two that divides the
number. -/
theorem isGreatest_ctz {n : Nat} {a : BitVec n} (ha : a ≠ 0) : IsGreatest {k | a.toNat % 2 ^ k = 0} (ctz a) := by
  obtain ⟨-, hset, hclear⟩ := ctz_spec ha
  constructor
  · refine Nat.eq_of_testBit_eq fun i => ?_
    rw [Nat.testBit_mod_two_pow, BitVec.testBit_toNat, Nat.zero_testBit]
    by_cases hi : i < ctz a
    · rw [hclear i hi, Bool.and_false]
    · rw [decide_eq_false hi, Bool.false_and]
  · intro k (hk : a.toNat % 2 ^ k = 0)
    by_contra hlt
    have hbit := Nat.testBit_mod_two_pow a.toNat k (ctz a)
    rw [hk, BitVec.testBit_toNat, hset, Nat.zero_testBit, decide_eq_true (not_le.mp hlt)] at hbit
    cases hbit

/-- The rule of CTZ in terms of the N-bit view as a number. -/
theorem ctz_rule {n : Nat} (a : BitVec n) :
    if a.toNat = 0 then ctz a = n else IsGreatest {k | a.toNat % 2 ^ k = 0} (ctz a) := by
  split
  case isTrue h => rw [BitVec.eq_of_toNat_eq (y := 0) h, ctz_zero]
  case isFalse h => exact isGreatest_ctz fun ha => h (congrArg BitVec.toNat ha)

/-- A count of at most N fits the destination. -/
theorem ofNat_ctz_toNat {n : Nat} (hn : n ≤ 256) (a : BitVec n) : (BitVec.ofNat 256 (ctz a)).toNat = ctz a := by
  rw [BitVec.toNat_ofNat, Nat.mod_eq_of_lt]
  exact lt_of_le_of_lt ((ctz_le a).trans hn) (by decide)

/-! ### Comparisons (R182) -/

/-- The common rule of the comparisons: a relation of bit vectors that is the relation `p` of their numbers. -/
theorem regRule_of_compareOp {i : Instr} {w : CmdWord} {rd ra rb : Reg} {n : Nat} {rel : BitVec n → BitVec n → Bool}
    (p : Nat → Nat → Prop) [DecidableRel p] (hrel : ∀ a b, rel a b = true ↔ p a.toNat b.toNat) (henc : HasEncoding i w)
    (hexec : ∀ s, exec i s = compareOp n rel rd ra rb s) :
    RegRule i w rd (fun s => if p (low n s ra) (low n s rb) then 1 else 0) := by
  refine regRule_of_finishReg henc fun s => ?_
  have hiff := hrel (view n s ra) (view n s rb)
  rw [view_toNat, view_toNat] at hiff
  have htruth : truth (rel (view n s ra) (view n s rb)) =
      BitVec.ofNat 256 (if p (low n s ra) (low n s rb) then 1 else 0) := by
    rw [truth, apply_ite (BitVec.ofNat 256)]
    exact if_congr hiff rfl rfl
  rw [hexec, compareOp, htruth]

/-! ### The commands -/

/-- Settles O40: each operation on bit vectors is the operation on their numbers. -/
theorem bitwiseAndSet : Obligations.BitwiseAndSet := by
  intro rd ra rb
  refine ⟨?_, ?_, ?_, ?_, ?_, ?_, ?_, ?_, ?_, ?_⟩
  all_goals refine regRule_of_zext (hasEncoding_of_encode rfl (wordR_eq_cmdR ..)) (fun _ => rfl) fun s => ?_
  · rw [BitVec.toNat_and, view_toNat, view_toNat]
  · rw [BitVec.toNat_and, view_256_toNat, view_256_toNat]
  · rw [BitVec.toNat_or, view_toNat, view_toNat]
  · rw [BitVec.toNat_or, view_256_toNat, view_256_toNat]
  · rw [BitVec.toNat_xor, view_toNat, view_toNat]
  · rw [BitVec.toNat_xor, view_256_toNat, view_256_toNat]
  · rw [BitVec.toNat_not, view_toNat]
  · rw [BitVec.toNat_not, view_256_toNat]
  · rw [id, view_toNat]
  · rw [id, view_256_toNat]

/-- Settles O41: the amount is the signed number of the rule, in the register forms and in the immediate forms. -/
theorem shiftsBySignedAmounts : Obligations.ShiftsBySignedAmounts := by
  intro rd ra rb imm16
  simp only [← low_256]
  refine ⟨regRule_of_signedAmountOp (shlSigned_toNat (by decide)) ?_ fun _ => rfl,
    regRule_of_signedAmountOp (shlSigned_toNat (by decide)) ?_ fun _ => rfl,
    regRule_of_signedAmountOp (shrSigned_toNat (by decide)) ?_ fun _ => rfl,
    regRule_of_signedAmountOp (shrSigned_toNat (by decide)) ?_ fun _ => rfl,
    regRule_of_immAmountOp (shlSigned_toNat (by decide)) ?_ fun _ => rfl,
    regRule_of_immAmountOp (shlSigned_toNat (by decide)) ?_ fun _ => rfl,
    regRule_of_immAmountOp (shrSigned_toNat (by decide)) ?_ fun _ => rfl,
    regRule_of_immAmountOp (shrSigned_toNat (by decide)) ?_ fun _ => rfl⟩
  iterate 4 exact hasEncoding_of_encode rfl (wordR_eq_cmdR ..)
  iterate 4 exact hasEncoding_of_encode rfl (wordI_eq_cmdI ..)

/-- Settles O42: N less the bit length, and the place of the lowest set bit. -/
theorem zeroCounts : Obligations.ZeroCounts := by
  intro rd ra
  refine ⟨regRule_of_finishReg (hasEncoding_of_encode rfl (wordR_eq_cmdR ..)) fun s => ?_,
    regRule_of_finishReg (hasEncoding_of_encode rfl (wordR_eq_cmdR ..)) fun s => ?_,
    regRuleProp_of_finishReg _ (hasEncoding_of_encode rfl (wordR_eq_cmdR ..)) (fun _ => rfl) fun s => ?_,
    regRuleProp_of_finishReg _ (hasEncoding_of_encode rfl (wordR_eq_cmdR ..)) (fun _ => rfl) fun s => ?_⟩
  · rw [← bitlen_eq_size, ← view_toNat]; rfl
  · rw [← bitlen_eq_size, ← view_256_toNat]; rfl
  · rw [ofNat_ctz_toNat (by decide), ← view_toNat 128 s ra]
    exact ctz_rule _
  · rw [ofNat_ctz_toNat le_rfl, ← view_256_toNat s ra]
    exact ctz_rule _

/-- Settles O43: the ten relations of bit vectors are those of their numbers. -/
theorem comparisonsWriteOneOrZero : Obligations.ComparisonsWriteOneOrZero := by
  intro rd ra rb
  have heq : ∀ {n : Nat} (a b : BitVec n), (a == b) = true ↔ a.toNat = b.toNat := fun _ _ =>
    beq_iff_eq.trans BitVec.toNat_eq
  simp only [← low_256]
  refine ⟨regRule_of_compareOp (· = ·) heq ?_ fun _ => rfl,
    regRule_of_compareOp (· < ·) (fun _ _ => BitVec.ult_iff_toNat_lt) ?_ fun _ => rfl,
    regRule_of_compareOp (· ≤ ·) (fun _ _ => BitVec.ule_iff_toNat_le) ?_ fun _ => rfl,
    regRule_of_compareOp (· > ·) (fun _ _ => BitVec.ult_iff_toNat_lt) ?_ fun _ => rfl,
    regRule_of_compareOp (· ≥ ·) (fun _ _ => BitVec.ule_iff_toNat_le) ?_ fun _ => rfl,
    regRule_of_compareOp (· = ·) heq ?_ fun _ => rfl,
    regRule_of_compareOp (· < ·) (fun _ _ => BitVec.ult_iff_toNat_lt) ?_ fun _ => rfl,
    regRule_of_compareOp (· ≤ ·) (fun _ _ => BitVec.ule_iff_toNat_le) ?_ fun _ => rfl,
    regRule_of_compareOp (· > ·) (fun _ _ => BitVec.ult_iff_toNat_lt) ?_ fun _ => rfl,
    regRule_of_compareOp (· ≥ ·) (fun _ _ => BitVec.ule_iff_toNat_le) ?_ fun _ => rfl⟩
  all_goals exact hasEncoding_of_encode rfl (wordR_eq_cmdR ..)

end Sys2Proof.Machine

/-! # Conversions to and from floats (43_convert.md R202 to R206) -/

namespace Sys2Proof.Machine

/-! ### The value of a pattern (R202) -/

/-- The statements' value of a pattern is the model's significand times a power of two. -/
theorem floatMagnitude_eq (fmt : FloatFormat) (bits : Nat) :
    floatMagnitude fmt bits = significand fmt bits * (2 : ℚ) ^ scale fmt bits := by
  by_cases h : expField fmt bits = 0
  · rw [significand, scale, if_pos h, if_pos h]
    cases fmt <;> exact if_pos h
  · rw [significand, scale, if_neg h, if_neg h, sub_sub, Nat.cast_add, Nat.cast_pow]
    cases fmt <;> exact if_neg h

/-- Truncation toward zero of a magnitude is its floor (R205). -/
theorem floor_floatMagnitude (fmt : FloatFormat) (bits : Nat) : ⌊floatMagnitude fmt bits⌋ = wholePart fmt bits := by
  rw [floatMagnitude_eq, wholePart]
  split
  case isTrue h =>
    obtain ⟨k, hk⟩ := Int.eq_ofNat_of_zero_le h
    rw [hk, zpow_natCast, Int.toNat_natCast]
    exact_mod_cast Int.floor_natCast (R := ℚ) _
  case isFalse h =>
    obtain ⟨k, hk⟩ := Int.eq_ofNat_of_zero_le (a := -scale fmt bits) (by omega)
    rw [hk, Int.toNat_natCast, ← neg_neg (scale fmt bits), hk, zpow_neg, zpow_natCast, ← div_eq_mul_inv]
    exact_mod_cast Rat.floor_natCast_div_natCast _ _

/-! ### The type codes of floats (R200) -/

theorem ambientType?_nine : ambientType? 9 = some (.float .binary32) := rfl

theorem ambientType?_ten : ambientType? 10 = some (.float .binary64) := rfl

/-! ### FROM of floats (R205, R206) -/

theorem floatToUint_toNat (n : Nat) (fmt : FloatFormat) (bits : Nat) :
    (floatToUint n fmt bits).toNat =
      wrapInt n (if signField fmt bits = 1 then -⌊floatMagnitude fmt bits⌋ else ⌊floatMagnitude fmt bits⌋) := by
  rw [floatToUint, floor_floatMagnitude, BitVec.toNat_ofInt, wrapInt]
  norm_cast

/-- FROM with a float type code converts the low bits of its operand. -/
theorem writes_fromOp_float {t : Byte} {fmt : FloatFormat} (ht : ambientType? t = some (.float fmt)) {rd : Reg}
    (hrd : 3 ≤ rd.val) (n : Nat) (ra : Reg) (s : State) :
    Writes (fromOp n rd ra t s) rd (fromFloat n fmt (BitVec.ofNat 64 (low (floatWidth fmt) s ra))).toNat s := by
  refine writes_of_finishReg ?_ hrd
  rw [fromOp, ht, ← zext_eq_ofNat, ← view_toNat, BitVec.ofNat_toNat]
  rfl

/-- The pattern FROM converts is its operand's low bits as a number. -/
theorem toNat_ofNat_low_floatWidth (fmt : FloatFormat) (s : State) (ra : Reg) :
    (BitVec.ofNat 64 (low (floatWidth fmt) s ra)).toNat = low (floatWidth fmt) s ra := by
  rw [BitVec.toNat_ofNat, Nat.mod_eq_of_lt]
  refine (low_lt _ s ra).trans_le (Nat.pow_le_pow_right (by decide) ?_)
  cases fmt <;> decide

/-- In a pattern of the format's width the sign is the top bit. -/
theorem signField_of_lt {fmt : FloatFormat} {bits : Nat} (h : bits < 2 ^ floatWidth fmt) :
    signField fmt bits = bits / 2 ^ (floatWidth fmt - 1) := by
  cases fmt
  all_goals
    simp only [floatWidth, signField, fracBits, expBits] at *
    omega

theorem writes_fromOp_finite {t : Byte} {fmt : FloatFormat} (ht : ambientType? t = some (.float fmt)) {rd ra : Reg}
    (hrd : 3 ≤ rd.val) {s : State} (hfin : expField fmt (low (floatWidth fmt) s ra) ≠ 2 ^ expBits fmt - 1) (n : Nat) :
    Writes (fromOp n rd ra t s) rd
      (wrapInt n (if low (floatWidth fmt) s ra / 2 ^ (floatWidth fmt - 1) = 1
        then -⌊floatMagnitude fmt (low (floatWidth fmt) s ra)⌋
        else ⌊floatMagnitude fmt (low (floatWidth fmt) s ra)⌋)) s := by
  have hw := writes_fromOp_float ht hrd n ra s
  rwa [fromFloat, toNat_ofNat_low_floatWidth, isNonFinite, decide_eq_false hfin, if_neg (by decide), floatToUint_toNat,
    signField_of_lt (low_lt _ s ra)] at hw

theorem writes_fromOp_nonFinite {t : Byte} {fmt : FloatFormat} (ht : ambientType? t = some (.float fmt)) {rd ra : Reg}
    (hrd : 3 ≤ rd.val) {s : State} (hinf : expField fmt (low (floatWidth fmt) s ra) = 2 ^ expBits fmt - 1) (n : Nat) :
    Writes (fromOp n rd ra t s) rd
      (Config.f2uNonfinite n fmt (BitVec.ofNat 64 (low (floatWidth fmt) s ra))).toNat s := by
  have hw := writes_fromOp_float ht hrd n ra s
  rwa [fromFloat, toNat_ofNat_low_floatWidth, isNonFinite, decide_eq_true hinf, if_pos rfl] at hw

/-- Settles O47: the exponent field decides, at both widths and in both formats, between the floor and the open parameter. -/
theorem fromFloatTruncatesOrIsOpen : Obligations.FromFloatTruncatesOrIsOpen := by
  intro rd ra s hrd
  refine ⟨fun hfin => ?_, fun hfin => ?_, fun hinf => ?_, fun hinf => ?_⟩
  · exact ⟨writes_fromOp_finite ambientType?_ten hrd hfin 128, writes_fromOp_finite ambientType?_ten hrd hfin 256⟩
  · exact ⟨writes_fromOp_finite ambientType?_nine hrd hfin 128, writes_fromOp_finite ambientType?_nine hrd hfin 256⟩
  · exact ⟨writes_fromOp_nonFinite ambientType?_ten hrd hinf 128, writes_fromOp_nonFinite ambientType?_ten hrd hinf 256⟩
  · exact ⟨writes_fromOp_nonFinite ambientType?_nine hrd hinf 128, writes_fromOp_nonFinite ambientType?_nine hrd hinf 256⟩

/-! ### The fields of a pattern (R202) -/

theorem finitePatterns_eq (fmt : FloatFormat) : finitePatterns fmt = (2 ^ expBits fmt - 1) * 2 ^ fracBits fmt := by
  cases fmt <;> rfl

/-- The exponents of the finite patterns are twice as many as the bias. -/
theorem two_pow_expBits (fmt : FloatFormat) : 2 ^ expBits fmt = 2 * expBias fmt + 2 := by cases fmt <;> rfl

theorem floatMagnitude_fields {fmt : FloatFormat} {e f : Nat} (he : e < 2 ^ expBits fmt) (hf : f < 2 ^ fracBits fmt) :
    floatMagnitude fmt (e * 2 ^ fracBits fmt + f) =
      if e = 0 then f * (2 : ℚ) ^ (1 - expBias fmt - fracBits fmt : ℤ)
      else (2 ^ fracBits fmt + f) * (2 : ℚ) ^ (e - expBias fmt - fracBits fmt : ℤ) := by
  have hexp : expField fmt (e * 2 ^ fracBits fmt + f) = e := by
    rw [expField, mul_comm, Nat.mul_add_div (Nat.two_pow_pos _), Nat.div_eq_of_lt hf, add_zero, Nat.mod_eq_of_lt he]
  have hfrac : fracField fmt (e * 2 ^ fracBits fmt + f) = f := by
    rw [fracField, Nat.mul_add_mod_self_right, Nat.mod_eq_of_lt hf]
  rw [floatMagnitude_eq, significand, scale, hexp, hfrac]
  split
  case isTrue => rfl
  case isFalse => push_cast; rfl

/-- The unit in the last place of the binade from the pattern `(k + 1) · 2^F` on; for `k = 0` also that of the subnormals. -/
def unitOf (fmt : FloatFormat) (k : Nat) : ℚ := (2 : ℚ) ^ (k + 1 - expBias fmt - fracBits fmt : ℤ)

theorem unitOf_pos (fmt : FloatFormat) (k : Nat) : 0 < unitOf fmt k := zpow_pos two_pos _

/-- The patterns of a binade count its units, up to and including the next binade's first pattern. -/
theorem floatMagnitude_add {fmt : FloatFormat} {k m : Nat} (hlow : k = 0 ∨ 2 ^ fracBits fmt ≤ m)
    (hhigh : m ≤ 2 ^ (fracBits fmt + 1)) (hfin : k * 2 ^ fracBits fmt + m < finitePatterns fmt) :
    floatMagnitude fmt (k * 2 ^ fracBits fmt + m) = m * unitOf fmt k := by
  have hpos := Nat.two_pow_pos (fracBits fmt)
  rw [pow_succ] at hhigh
  rw [finitePatterns_eq] at hfin
  rw [unitOf]
  by_cases hsub : m < 2 ^ fracBits fmt
  · obtain rfl : k = 0 := by omega
    rw [floatMagnitude_fields (Nat.two_pow_pos _) hsub, if_pos rfl, Nat.cast_zero, zero_add]
  · obtain ⟨f, rfl⟩ := Nat.exists_eq_add_of_le (not_lt.mp hsub)
    have hk : k + 1 < 2 ^ expBits fmt - 1 := by
      refine Nat.lt_of_mul_lt_mul_right (a := 2 ^ fracBits fmt) ?_
      rw [add_mul]; omega
    by_cases hf : f < 2 ^ fracBits fmt
    · have hsplit : k * 2 ^ fracBits fmt + (2 ^ fracBits fmt + f) = (k + 1) * 2 ^ fracBits fmt + f := by ring
      rw [hsplit, floatMagnitude_fields (by omega) hf, if_neg (by omega)]
      push_cast; rfl
    · obtain rfl : f = 2 ^ fracBits fmt := by omega
      have hsplit : k * 2 ^ fracBits fmt + (2 ^ fracBits fmt + 2 ^ fracBits fmt) = (k + 2) * 2 ^ fracBits fmt + 0 := by ring
      have hexp : ((k + 2 : ℕ) - expBias fmt - fracBits fmt : ℤ) = k + 1 - expBias fmt - fracBits fmt + 1 := by
        push_cast; ring
      rw [hsplit, floatMagnitude_fields (by omega) hpos, if_neg (by omega), hexp, zpow_add_one₀ two_ne_zero]
      push_cast; ring

/-- A pattern as the place in its binade. -/
theorem exists_binade (F b : Nat) : ∃ k m, b = k * 2 ^ F + m ∧ (k = 0 ∨ 2 ^ F ≤ m) ∧ m + 1 ≤ 2 ^ (F + 1) := by
  have hpos := Nat.two_pow_pos F
  have hdiv := Nat.div_add_mod' b (2 ^ F)
  have hmod := Nat.mod_lt b hpos
  rw [pow_succ]
  cases hq : b / 2 ^ F with
  | zero =>
    rw [hq] at hdiv
    exact ⟨0, b % 2 ^ F, hdiv.symm, .inl rfl, by omega⟩
  | succ k =>
    rw [hq, add_mul] at hdiv
    exact ⟨k, 2 ^ F + b % 2 ^ F, by omega, .inr (by omega), by omega⟩

/-- The order of the finite patterns is the order of their values. -/
theorem strictMonoOn_floatMagnitude (fmt : FloatFormat) :
    StrictMonoOn (floatMagnitude fmt) (Set.Iio (finitePatterns fmt)) := by
  refine strictMonoOn_of_lt_add_one Set.ordConnected_Iio fun b _ hb hsucc => ?_
  obtain ⟨k, m, rfl, hlow, hhigh⟩ := exists_binade (fracBits fmt) b
  rw [Set.mem_Iio] at hb hsucc
  rw [floatMagnitude_add hlow (by omega) hb, add_assoc, floatMagnitude_add (by omega) hhigh hsucc]
  exact mul_lt_mul_of_pos_right (by exact_mod_cast m.lt_succ_self) (unitOf_pos fmt k)

/-! ### Rounding to the nearest integer, ties to even (R203, R204) -/

/-- `m` is the integer nearest to `x`, the even one of two that are equally near. -/
def IsNearestEven (x : ℚ) (m : Nat) : Prop := |m - x| ≤ 1 / 2 ∧ (|m - x| = 1 / 2 → m % 2 = 0)

theorem IsNearestEven.natCast (n : Nat) : IsNearestEven n n := by simp [IsNearestEven]

theorem IsNearestEven.le_of_le {x : ℚ} {m n : Nat} (h : IsNearestEven x m) (hx : n ≤ x) : n ≤ m := by
  have habs := (abs_le.mp h.1).1
  have hlt : (n : ℚ) < m + 1 := by linarith
  exact Nat.lt_succ_iff.mp (by exact_mod_cast hlt)

theorem IsNearestEven.ge_of_ge {x : ℚ} {m n : Nat} (h : IsNearestEven x m) (hx : x ≤ n) : m ≤ n := by
  have habs := (abs_le.mp h.1).2
  have hlt : (m : ℚ) < n + 1 := by linarith
  exact Nat.lt_succ_iff.mp (by exact_mod_cast hlt)

/-- The tie below an even integer goes to that integer. -/
theorem IsNearestEven.lt_iff_of_even {x : ℚ} {m n : Nat} (h : IsNearestEven x m) (hn : n % 2 = 0) :
    m < n ↔ x < n - 1 / 2 := by
  obtain ⟨hle, htie⟩ := h
  constructor
  · intro hmn
    by_contra hx
    have hm : (m : ℚ) + 1 ≤ n := by exact_mod_cast hmn
    have habs := (abs_le.mp hle).1
    have hm' : (n : ℚ) = (m + 1 : ℕ) := by push_cast; linarith
    have hnm : n = m + 1 := by exact_mod_cast hm'
    have heven := htie (by rw [abs_of_neg (by linarith)]; linarith)
    omega
  · intro hx
    have habs := (abs_le.mp hle).2
    have hlt : (m : ℚ) < n := by linarith
    exact_mod_cast hlt

theorem isNearestEven_add_of_le_half {q : Nat} {t : ℚ} (hnonneg : 0 ≤ t) (hle : t ≤ 1 / 2)
    (htie : t = 1 / 2 → q % 2 = 0) : IsNearestEven (q + t) q := by
  rw [IsNearestEven, sub_add_cancel_left, abs_neg, abs_of_nonneg hnonneg]
  exact ⟨hle, htie⟩

theorem isNearestEven_add_of_half_le {q : Nat} {t : ℚ} (hge : 1 / 2 ≤ t) (hlt : t < 1)
    (htie : t = 1 / 2 → q % 2 = 1) : IsNearestEven (q + t) (q + 1) := by
  rw [IsNearestEven, Nat.cast_add_one, add_sub_add_left_eq_sub, abs_of_pos (by linarith)]
  refine ⟨by linarith, fun h => ?_⟩
  have hodd := htie (by linarith)
  omega

/-- The model's comparison of the dropped bits with half of a unit rounds the quotient. -/
theorem isNearestEven_div_two_pow (v : Nat) {d : Nat} (hd : 0 < d) :
    IsNearestEven (v / 2 ^ d)
      (if v % 2 ^ d > 2 ^ (d - 1) ∨ (v % 2 ^ d = 2 ^ (d - 1) ∧ v / 2 ^ d % 2 = 1) then v / 2 ^ d + 1 else v / 2 ^ d) := by
  have hpos : (0 : ℚ) < 2 ^ d := by positivity
  have hunit : (2 : ℚ) ^ d = 2 ^ (d - 1) * 2 := by rw [← pow_succ, Nat.sub_add_cancel hd]
  have hquot : (v : ℚ) / 2 ^ d = (v / 2 ^ d : ℕ) + (v % 2 ^ d : ℕ) / 2 ^ d := by
    rw [div_eq_iff hpos.ne', add_mul, div_mul_cancel₀ _ hpos.ne']
    exact_mod_cast (Nat.div_add_mod' v (2 ^ d)).symm
  have hlt : ((v % 2 ^ d : ℕ) : ℚ) / 2 ^ d < 1 :=
    (div_lt_one hpos).mpr (by exact_mod_cast Nat.mod_lt v (Nat.two_pow_pos d))
  have hle : ((v % 2 ^ d : ℕ) : ℚ) / 2 ^ d ≤ 1 / 2 ↔ v % 2 ^ d ≤ 2 ^ (d - 1) := by
    rw [div_le_iff₀ hpos, hunit, mul_comm, mul_assoc, mul_one_div_cancel two_ne_zero, mul_one]
    norm_cast
  have hge : 1 / 2 ≤ ((v % 2 ^ d : ℕ) : ℚ) / 2 ^ d ↔ 2 ^ (d - 1) ≤ v % 2 ^ d := by
    rw [le_div_iff₀ hpos, hunit, mul_comm, mul_assoc, mul_one_div_cancel two_ne_zero, mul_one]
    norm_cast
  rw [hquot]
  split
  case isTrue hup =>
    refine isNearestEven_add_of_half_le (hge.mpr (by omega)) hlt fun h => ?_
    have hhalf := hle.mp h.le
    omega
  case isFalse hdown =>
    refine isNearestEven_add_of_le_half (by positivity) (hle.mpr (by omega)) fun h => ?_
    have hhalf := hge.mp h.ge
    omega

/-- A number a unit away from the nearest integer `m`, or on the other side of `m`, is no nearer to `x` than `m` is. -/
theorem IsNearestEven.dist_lt_or {x y : ℚ} {m : Nat} (hm : IsNearestEven x m)
    (hy : 1 ≤ |y - m| ∨ (y < m ∧ m ≤ x) ∨ (m < y ∧ x ≤ m)) :
    |m - x| < |y - x| ∨ (|m - x| = |y - x| ∧ m % 2 = 0) := by
  obtain ⟨hle, htie⟩ := hm
  rcases hy with haway | ⟨hlt, hmx⟩ | ⟨hlt, hxm⟩
  · have htri := abs_sub_le y x m
    rw [abs_sub_comm x] at htri
    rcases (show |m - x| ≤ |y - x| by linarith).lt_or_eq with h | h
    · exact .inl h
    · exact .inr ⟨h, htie (by linarith)⟩
  · left
    rw [abs_of_nonpos (by linarith), abs_of_neg (by linarith)]
    linarith
  · left
    rw [abs_of_nonneg (by linarith), abs_of_pos (by linarith)]
    linarith

/-! ### A rounded significand makes the nearest pattern (R203, R204) -/

section
variable {fmt : FloatFormat} {k m b : Nat} {x y : ℚ} (hlow : 2 ^ fracBits fmt ≤ m) (hhigh : m ≤ 2 ^ (fracBits fmt + 1))
  (hfin : k * 2 ^ fracBits fmt + m < finitePatterns fmt) (hb : b < finitePatterns fmt)
  (hy : floatMagnitude fmt b = y * unitOf fmt k)
include hlow hhigh hfin hb hy

/-- Patterns compare as their values do, measured in the unit of a binade. -/
theorem scaled_le_iff : y ≤ m ↔ b ≤ k * 2 ^ fracBits fmt + m := by
  rw [← (strictMonoOn_floatMagnitude fmt).le_iff_le hb hfin, floatMagnitude_add (.inr hlow) hhigh hfin, hy]
  exact (mul_le_mul_iff_left₀ (unitOf_pos fmt k)).symm

theorem le_scaled_iff : m ≤ y ↔ k * 2 ^ fracBits fmt + m ≤ b := by
  rw [← (strictMonoOn_floatMagnitude fmt).le_iff_le hfin hb, floatMagnitude_add (.inr hlow) hhigh hfin, hy]
  exact (mul_le_mul_iff_left₀ (unitOf_pos fmt k)).symm

/-- Every other pattern is a unit or more away from the pattern of `m`, except beyond an end of the binade, where the unit
changes; there `m` lies between it and `x`. -/
theorem scaled_away_or_beyond (hne : b ≠ k * 2 ^ fracBits fmt + m) (hxlow : 2 ^ fracBits fmt ≤ x)
    (hxhigh : x ≤ 2 ^ (fracBits fmt + 1)) : 1 ≤ |y - m| ∨ (y < m ∧ m ≤ x) ∨ (m < y ∧ x ≤ m) := by
  rcases lt_or_gt_of_ne hne with hlt | hgt
  · rcases hlow.eq_or_lt with rfl | hlow'
    · have hym := mt (le_scaled_iff hlow hhigh hfin hb hy).mp (not_le.mpr hlt)
      exact .inr (.inl ⟨not_le.mp hym, by exact_mod_cast hxlow⟩)
    · obtain ⟨n, rfl⟩ := Nat.exists_eq_add_one.mpr (Nat.zero_lt_of_lt hlow')
      have hyn := (scaled_le_iff (m := n) (by omega) (by omega) (by omega) hb hy).mpr (by omega)
      refine .inl (le_abs'.mpr (.inl ?_))
      push_cast
      linarith
  · rcases hhigh.eq_or_lt with rfl | hhigh'
    · have hym := mt (scaled_le_iff hlow hhigh hfin hb hy).mp (not_le.mpr hgt)
      exact .inr (.inr ⟨not_le.mp hym, by exact_mod_cast hxhigh⟩)
    · have hyn := (le_scaled_iff (m := m + 1) (by omega) (by omega) (by omega) hb hy).mpr (by omega)
      refine .inl (le_abs'.mpr (.inr ?_))
      push_cast at hyn
      linarith

end

/-- In a binade the pattern of the significand nearest to `x` is the pattern nearest to `x` units. -/
theorem roundsToNearestEven_of_isNearestEven {fmt : FloatFormat} {k m : Nat} {x : ℚ} (hxlow : 2 ^ fracBits fmt ≤ x)
    (hxhigh : x ≤ 2 ^ (fracBits fmt + 1)) (hm : IsNearestEven x m)
    (hfin : k * 2 ^ fracBits fmt + m < finitePatterns fmt) :
    RoundsToNearestEven fmt (x * unitOf fmt k) (k * 2 ^ fracBits fmt + m) := by
  have hlow : 2 ^ fracBits fmt ≤ m := hm.le_of_le (by exact_mod_cast hxlow)
  have hhigh : m ≤ 2 ^ (fracBits fmt + 1) := hm.ge_of_ge (by exact_mod_cast hxhigh)
  have hunit := unitOf_pos fmt k
  have hparity : m % 2 = 0 → (k * 2 ^ fracBits fmt + m) % 2 = 0 := fun h => by
    cases fmt <;> simp only [fracBits] <;> omega
  refine ⟨hfin, fun b hb hne => ?_⟩
  have hy : floatMagnitude fmt b = floatMagnitude fmt b / unitOf fmt k * unitOf fmt k :=
    (div_mul_cancel₀ _ hunit.ne').symm
  rw [floatMagnitude_add (.inr hlow) hhigh hfin, hy, ← sub_mul, ← sub_mul, abs_mul, abs_mul, abs_of_pos hunit,
    mul_lt_mul_iff_left₀ hunit, mul_left_inj' hunit.ne']
  exact (hm.dist_lt_or (scaled_away_or_beyond hlow hhigh hfin hb hy hne hxlow hxhigh)).imp_right (And.imp_right hparity)

/-! ### The rounding of the model (R203, R204) -/

/-- A positive integer in units of the last place of a significand of `F + 1` bits. -/
def inUnits (F v : Nat) : ℚ := v / (2 : ℚ) ^ (bitlen v - (F + 1) : ℤ)

theorem bitlen_pos {v : Nat} (hv : v ≠ 0) : 0 < bitlen v := by
  refine Nat.pos_of_ne_zero fun hlen => hv ?_
  have hlt := (bitlen_spec hv).2
  rwa [hlen, pow_zero, Nat.lt_one_iff] at hlt

theorem le_inUnits {v : Nat} (F : Nat) (hv : v ≠ 0) : 2 ^ F ≤ inUnits F v := by
  obtain ⟨len, hlen⟩ := Nat.exists_eq_add_one.mpr (bitlen_pos hv)
  have hlow := (bitlen_spec hv).1
  rw [inUnits, le_div_iff₀ (by positivity), ← zpow_natCast, ← zpow_add₀ two_ne_zero, hlen]
  rw [hlen] at hlow
  push_cast
  rw [add_sub_add_right_eq_sub, add_sub_cancel, zpow_natCast]
  exact_mod_cast hlow

theorem inUnits_lt {v : Nat} (F : Nat) (hv : v ≠ 0) : inUnits F v < 2 ^ (F + 1) := by
  rw [inUnits, div_lt_iff₀ (by positivity), ← zpow_natCast, ← zpow_add₀ two_ne_zero, Nat.cast_add_one, add_sub_cancel,
    zpow_natCast]
  exact_mod_cast (bitlen_spec hv).2

/-- The significand and the exponent that the model rounds to stand for the nearest integer of units; where that is a whole
binade, it is the next binade's first significand. -/
theorem exists_isNearestEven_roundToNearestEven (F : Nat) {v : Nat} (hv : v ≠ 0) :
    ∃ m, IsNearestEven (inUnits F v) m ∧ 2 ^ F ≤ (roundToNearestEven (F + 1) v).1 ∧
      (roundToNearestEven (F + 1) v).1 < 2 ^ (F + 1) ∧
      (roundToNearestEven (F + 1) v).2 * 2 ^ F + (roundToNearestEven (F + 1) v).1 = (bitlen v - 1) * 2 ^ F + m := by
  have hxlow := le_inUnits F hv
  have hxhigh := inUnits_lt F hv
  by_cases hlen : bitlen v ≤ F + 1
  · obtain ⟨d, hd⟩ := Nat.exists_eq_add_of_le hlen
    have hround : roundToNearestEven (F + 1) v = (v * 2 ^ d, bitlen v - 1) := by
      rw [roundToNearestEven, if_pos hlen, hd, Nat.add_sub_cancel_left]
    have hunits : inUnits F v = (v * 2 ^ d : ℕ) := by
      have hexp : (bitlen v - (F + 1) : ℤ) = -d := by omega
      rw [inUnits, hexp, zpow_neg, zpow_natCast, div_inv_eq_mul]
      norm_cast
    rw [hunits] at hxlow hxhigh ⊢
    rw [hround]
    exact ⟨_, .natCast _, by exact_mod_cast hxlow, by exact_mod_cast hxhigh, rfl⟩
  · have hunits : inUnits F v = v / 2 ^ (bitlen v - (F + 1)) := by
      rw [inUnits, ← zpow_natCast, Nat.cast_sub (not_le.mp hlen).le]
      norm_cast
    have hnear := isNearestEven_div_two_pow v (Nat.sub_pos_of_lt (not_le.mp hlen))
    rw [← hunits] at hnear
    obtain ⟨m, hm, hround⟩ : ∃ m, IsNearestEven (inUnits F v) m ∧ roundToNearestEven (F + 1) v =
        if m = 2 ^ (F + 1) then (2 ^ F, bitlen v) else (m, bitlen v - 1) := ⟨_, hnear, if_neg hlen⟩
    have hmlow : 2 ^ F ≤ m := hm.le_of_le (by exact_mod_cast hxlow)
    have hmhigh : m ≤ 2 ^ (F + 1) := hm.ge_of_ge (by exact_mod_cast hxhigh.le)
    refine ⟨m, hm, ?_⟩
    rw [hround]
    split
    case isTrue hcarry =>
      obtain ⟨len, hlen'⟩ := Nat.exists_eq_add_one.mpr (bitlen_pos hv)
      rw [hcarry, hlen', Nat.add_sub_cancel]
      exact ⟨le_rfl, Nat.pow_lt_pow_right (by decide) F.lt_succ_self, by ring⟩
    case isFalse hcarry => exact ⟨hmlow, lt_of_le_of_ne hmhigh hcarry, rfl⟩

theorem uintToFloat_of_ne_zero (fmt : FloatFormat) {v : Nat} (hv : v ≠ 0) :
    uintToFloat fmt v =
      if expBias fmt < (roundToNearestEven (fracBits fmt + 1) v).2 then finitePatterns fmt
      else ((roundToNearestEven (fracBits fmt + 1) v).2 + expBias fmt) * 2 ^ fracBits fmt +
        ((roundToNearestEven (fracBits fmt + 1) v).1 - 2 ^ fracBits fmt) := by
  rw [uintToFloat, if_neg hv, finitePatterns_eq]

/-- The pattern of the significand `m` in the binade of a positive integer `v`, if it is finite. -/
def binadePattern (fmt : FloatFormat) (v m : Nat) : Nat :=
  (bitlen v - 1 + (expBias fmt - 1)) * 2 ^ fracBits fmt + m

/-- The model's pattern is the one of the nearest integer of units, or +infinity where that is past the finite patterns. -/
theorem exists_isNearestEven_uintToFloat (fmt : FloatFormat) {v : Nat} (hv : v ≠ 0) :
    ∃ m, IsNearestEven (inUnits (fracBits fmt) v) m ∧
      uintToFloat fmt v = min (binadePattern fmt v m) (finitePatterns fmt) := by
  obtain ⟨m, hm, hlow, hhigh, hsum⟩ := exists_isNearestEven_roundToNearestEven (fracBits fmt) hv
  refine ⟨m, hm, ?_⟩
  obtain ⟨bias, hbias⟩ : ∃ bias, expBias fmt = bias + 1 := by cases fmt <;> exact ⟨_, rfl⟩
  have hinf : finitePatterns fmt = (2 * bias + 3) * 2 ^ fracBits fmt := by
    rw [finitePatterns_eq, two_pow_expBits, hbias]; rfl
  rw [uintToFloat_of_ne_zero fmt hv, binadePattern, hinf, hbias, Nat.add_sub_cancel]
  generalize roundToNearestEven (fracBits fmt + 1) v = r at *
  rw [pow_succ] at hhigh
  split
  case isTrue hbig =>
    have hexp : (bias + 2) * 2 ^ fracBits fmt ≤ r.2 * 2 ^ fracBits fmt := Nat.mul_le_mul_right _ hbig
    refine (min_eq_right ?_).symm
    simp only [add_mul, mul_assoc] at *
    omega
  case isFalse hsmall =>
    have hexp : r.2 * 2 ^ fracBits fmt ≤ (bias + 1) * 2 ^ fracBits fmt := Nat.mul_le_mul_right _ (not_lt.mp hsmall)
    rw [min_eq_left]
    all_goals
      simp only [add_mul, mul_assoc] at *
      omega

/-- A finite result is the pattern nearest to the value (R203, R204). -/
theorem roundsToNearestEven_binadePattern {fmt : FloatFormat} {v m : Nat} (hv : v ≠ 0)
    (hm : IsNearestEven (inUnits (fracBits fmt) v) m) (hfin : binadePattern fmt v m < finitePatterns fmt) :
    RoundsToNearestEven fmt v (binadePattern fmt v m) := by
  have hvalue : (v : ℚ) = inUnits (fracBits fmt) v * unitOf fmt (bitlen v - 1 + (expBias fmt - 1)) := by
    have hexp : ((bitlen v - 1 + (expBias fmt - 1) : ℕ) + 1 - expBias fmt - fracBits fmt : ℤ) =
        bitlen v - (fracBits fmt + 1) := by
      have hlen := bitlen_pos hv
      have hbias : 0 < expBias fmt := by cases fmt <;> decide
      omega
    rw [unitOf, hexp, inUnits, div_mul_cancel₀ _ (by positivity)]
  rw [hvalue]
  exact roundsToNearestEven_of_isNearestEven (le_inUnits _ hv) (inUnits_lt _ hv).le hm hfin

/-- Zero is the least pattern's value. -/
theorem roundsToNearestEven_zero (fmt : FloatFormat) : RoundsToNearestEven fmt (0 : ℕ) 0 := by
  have hpos : 0 < finitePatterns fmt := by cases fmt <;> decide
  have hzero : floatMagnitude fmt 0 = 0 := by
    rw [floatMagnitude_eq, significand]
    cases fmt <;> exact zero_mul _
  refine ⟨hpos, fun b hb hne => .inl ?_⟩
  have hlt := strictMonoOn_floatMagnitude fmt hpos hb (Nat.pos_of_ne_zero hne)
  rw [hzero] at hlt
  simpa [hzero] using hlt.ne'

/-! ### TO of floats (R203, R204) -/

theorem writes_toOp_float {t : Byte} {fmt : FloatFormat} (ht : ambientType? t = some (.float fmt)) {rd : Reg}
    (hrd : 3 ≤ rd.val) (n : Nat) (ra : Reg) (s : State) :
    Writes (toOp n rd ra t s) rd (uintToFloat fmt (low n s ra)) s := by
  refine writes_of_finishReg ?_ hrd
  rw [toOp, ht, ← view_toNat]
  rfl

/-- Every 256-bit value is far below the largest finite binary64 number. -/
theorem roundsToNearestEven_binary64 {v : Nat} (hv : v < 2 ^ 256) :
    RoundsToNearestEven .binary64 v (uintToFloat .binary64 v) := by
  rcases eq_or_ne v 0 with rfl | hne
  · exact roundsToNearestEven_zero _
  · obtain ⟨m, hm, hround⟩ := exists_isNearestEven_uintToFloat .binary64 hne
    have hfin : binadePattern .binary64 v m < finitePatterns .binary64 := by
      have hlen := bitlen_le hv
      have hmhigh : m ≤ 2 ^ 53 := hm.ge_of_ge (by exact_mod_cast (inUnits_lt 52 hne).le)
      simp only [binadePattern, expBias, fracBits, finitePatterns]
      omega
    rw [hround, min_eq_left hfin.le]
    exact roundsToNearestEven_binadePattern hne hm hfin

/-- In the last binade of binary32 the tie below `2^24` units rounds up to +infinity. -/
theorem binadePattern_binary32_lt_iff {v m : Nat} (hv : v ≠ 0) (hm : IsNearestEven (inUnits 23 v) m) :
    binadePattern .binary32 v m < finitePatterns .binary32 ↔ v < 2 ^ 128 - 2 ^ 103 := by
  have hmlow : 2 ^ 23 ≤ m := hm.le_of_le (by exact_mod_cast le_inUnits 23 hv)
  have hmhigh : m ≤ 2 ^ 24 := hm.ge_of_ge (by exact_mod_cast (inUnits_lt 23 hv).le)
  have hlen := bitlen_pos hv
  obtain ⟨hlow, hhigh⟩ := bitlen_spec hv
  simp only [binadePattern, expBias, fracBits, finitePatterns]
  rcases lt_trichotomy (bitlen v) 128 with hlt | heq | hgt
  · have hv' := hhigh.trans_le (Nat.pow_le_pow_right two_pos (Nat.le_of_lt_succ hlt))
    omega
  · have htie := hm.lt_iff_of_even (n := 2 ^ 24) rfl
    have hthreshold : inUnits 23 v < (2 ^ 24 : ℕ) - 1 / 2 ↔ v < 2 ^ 128 - 2 ^ 103 := by
      have hbound : ((2 ^ 24 : ℕ) - 1 / 2 : ℚ) * 2 ^ ((128 : ℕ) - ((23 : ℕ) + 1) : ℤ) = (2 ^ 128 - 2 ^ 103 : ℕ) := by
        norm_num
      rw [inUnits, heq, div_lt_iff₀ (by positivity), hbound, Nat.cast_lt]
    rw [← hthreshold, ← htie]
    omega
  · have hv' := (Nat.pow_le_pow_right two_pos (Nat.le_sub_one_of_lt hgt)).trans hlow
    omega

/-- Below the threshold the result is the nearest pattern, from there on +infinity. -/
theorem uintToFloat_binary32 (v : Nat) :
    if v < 2 ^ 128 - 2 ^ 103 then RoundsToNearestEven .binary32 v (uintToFloat .binary32 v)
    else uintToFloat .binary32 v = 0x7F800000 := by
  rcases eq_or_ne v 0 with rfl | hne
  · exact roundsToNearestEven_zero _
  · obtain ⟨m, hm, hround⟩ := exists_isNearestEven_uintToFloat .binary32 hne
    have hiff := binadePattern_binary32_lt_iff hne hm
    rw [hround]
    split
    case isTrue h =>
      rw [min_eq_left (hiff.mpr h).le]
      exact roundsToNearestEven_binadePattern hne hm (hiff.mpr h)
    case isFalse h => exact min_eq_right (not_lt.mp (mt hiff.mp h))

/-- Settles O49: at both widths the value is below `2^256`. -/
theorem toDoubleRoundsToNearestEven : Obligations.ToDoubleRoundsToNearestEven := by
  intro rd ra s hrd
  rw [← low_256]
  have hwide : low 128 s ra < 2 ^ 256 := (low_lt 128 s ra).trans (by decide)
  exact ⟨⟨_, roundsToNearestEven_binary64 hwide, writes_toOp_float ambientType?_ten hrd 128 ra s⟩,
    ⟨_, roundsToNearestEven_binary64 (low_lt 256 s ra), writes_toOp_float ambientType?_ten hrd 256 ra s⟩⟩

/-- Settles O50: the threshold is where the nearest integer of units leaves the last binade. -/
theorem toSingleRoundsToNearestEvenOrOverflows : Obligations.ToSingleRoundsToNearestEvenOrOverflows := by
  intro rd ra s hrd
  rw [← low_256]
  exact ⟨⟨_, uintToFloat_binary32 _, writes_toOp_float ambientType?_nine hrd 128 ra s⟩,
    ⟨_, uintToFloat_binary32 _, writes_toOp_float ambientType?_nine hrd 256 ra s⟩⟩

end Sys2Proof.Machine

/-! # Constant registers and precise errors (10_state.md R21; 60_exceptions.md R303, R311) -/

namespace Sys2Proof.Machine

/-! ### Constant registers -/

theorem val_zero (s : State) : val s 0 = 0 := by rw [val, readReg_zero, BitVec.ofNat_eq_ofNat, BitVec.toNat_zero]

theorem val_one (s : State) : val s 1 = 1 := by rw [val, readReg_one]; rfl

theorem val_max (s : State) : val s 2 = 2 ^ 256 - 1 := by rw [val, readReg_max, BitVec.toNat_allOnes]

/-- In a well-formed command that writes a register the destination check comes first (30_encoding.md R80); only a limb index
that has no word would come before it. -/
theorem exec_eq_guardDest {i : Instr} {rd : Reg} (hwf : i.wellFormed = true) (hdest : i.dest? = some rd) (s : State) :
    ∃ o, exec i s = guardDest rd s o := by
  cases i
  case limbget | limbset =>
    cases hdest
    exact ⟨_, guardLimbIndex_ok ((limbIndexOk_iff _).mp hwf) s _⟩
  case bstle128 | bstbe128 | bstle256 | bstbe256 => cases hdest
  all_goals
    cases hdest
    exact ⟨_, rfl⟩

theorem exec_endsWith_violation {i : Instr} {rd : Reg} (hwf : i.wellFormed = true) (hdest : i.dest? = some rd)
    (hrd : rd.val < 3) (s : State) : EndsWith (exec i s) .immutableConstantViolation s := by
  obtain ⟨o, ho⟩ := exec_eq_guardDest hwf hdest s
  exact ho.trans (guardDest_constant hrd s o)

/-- The rows of 30_encoding.md R77 that do not write x[rd]. -/
theorem dest?_eq_none_iff (i : Instr) :
    i.dest? = none ↔ ∃ rs ra rb, i ∈ [.bstle128 rs ra rb, .bstbe128 rs ra rb, .bstle256 rs ra rb, .bstbe256 rs ra rb] := by
  constructor
  · intro h
    cases i
    case bstle128 rs ra rb | bstbe128 rs ra rb | bstle256 rs ra rb | bstbe256 rs ra rb => exact ⟨rs, ra, rb, by simp⟩
    all_goals cases h
  · rintro ⟨rs, ra, rb, hmem⟩
    simp only [List.mem_cons, List.not_mem_nil, or_false] at hmem
    obtain rfl | rfl | rfl | rfl := hmem <;> rfl

/-- Settles O16: the destination check answers for every well-formed command that would write a constant register. -/
theorem constantRegistersCannotChange : Obligations.ConstantRegistersCannotChange := by
  refine ⟨fun s => ?_, fun i s rd hwf hdest hrd => exec_endsWith_violation hwf hdest hrd s, dest?_eq_none_iff⟩
  simp only [low, val_zero, val_one, val_max]
  decide

/-! ### Precise errors -/

/-- Of the ways a command can end, only an error has a status other than OK. -/
theorem eq_respond_of_exec {i : Instr} {s t : State} (h : exec i s = .next t) (hst : t.rspStatus ≠ .ok) :
    t = respond t.rspStatus s := by
  have hend := exec_ending i s
  rw [h] at hend
  cases hend
  case error => rfl
  case reg | store | storeReg => exact absurd rfl hst

theorem eq_respond_of_acceptCommand {w : CmdWord} {s t : State} (h : acceptCommand w s = .next t)
    (hst : t.rspStatus ≠ .ok) : t = respond t.rspStatus s := by
  rcases acceptCommand_cases w s with ⟨i, -, hexec⟩ | ⟨e, -, hillegal⟩
  · exact eq_respond_of_exec (hexec.symm.trans h) hst
  · cases hillegal.symm.trans h
    rfl

/-- Settles O21: an error is a response to the state it was accepted in. -/
theorem errorsChangeNothing : Obligations.ErrorsChangeNothing :=
  ⟨fun _ _ _ => eq_respond_of_exec, fun _ _ _ => eq_respond_of_acceptCommand⟩

end Sys2Proof.Machine

/-! # Encoding: both halves of the round trip, the opcode map, words the spec names (30_encoding.md R76 to R83) -/

namespace Sys2Proof

/-! ### The one operand that can have no word -/

theorem limbIndexOk_of_mask {w m p : CmdWord} (h : w &&& m = p) (hm : auxOf m = 0xFC#8) (hp : auxOf p = 0#8) :
    limbIndexOk (auxOf w) = true := by
  have hmask : ∀ k : Byte, k &&& 0xFC#8 = 0#8 → limbIndexOk k = true := by decide
  refine hmask _ ?_
  rw [← h, auxOf, BitVec.extractLsb'_and] at hp
  rwa [← hm]

/-- The masks of LIMBGET and LIMBSET keep the limb index below 4 (R75, R78). -/
theorem wellFormed_of_decode {w : CmdWord} {i : Instr} (h : decode w = .ok i) : i.wellFormed = true := by
  obtain ⟨row, hmem, hop, hmask, -⟩ := decode_eq_ok_iff.mp h
  obtain rfl := encode_of_decode h
  have hrow := rowFor?_of_mem hmem
  rw [hop] at hrow
  cases i
  case limbget | limbset =>
    rw [encode, opOf_wordR] at hrow
    cases hrow -- the lookup of a literal opcode evaluates to its row
    have hk := limbIndexOk_of_mask hmask (by decide) (by decide)
    rwa [encode, auxOf_wordR] at hk
  all_goals rfl

/-- The operation k at 256 bits stands 0x40 above its 128-bit form, under the same name and mask (R76). -/
theorem rowFor?_add_0x40 : ∀ r ∈ opcodeTable, 0x40 ≤ r.opcode.toNat → r.opcode.toNat < 0x80 →
    ∀ q ∈ rowFor? (r.opcode + 0x40#8),
      r.mnemonic.toList.take (r.mnemonic.length - 4) = q.mnemonic.toList.take (q.mnemonic.length - 4) ∧
      r.mnemonic.toList.drop (r.mnemonic.length - 4) = ['.', '1', '2', '8'] ∧
      q.mnemonic.toList.drop (q.mnemonic.length - 4) = ['.', '2', '5', '6'] ∧ r.mask = q.mask := by
  decide +kernel

end Sys2Proof

namespace Sys2Proof.Machine

/-- Settles O1: the row a command's word selects builds the command again. -/
theorem decodeOfEncodeGivesTheCommand : Obligations.DecodeOfEncodeGivesTheCommand := fun _ => decode_encode

/-- Settles O2: a row accepts no word but those of the well-formed commands it builds. -/
theorem encodeOfDecodeGivesTheWord : Obligations.EncodeOfDecodeGivesTheWord :=
  fun _ _ h => ⟨wellFormed_of_decode h, encode_of_decode h⟩

/-- Settles O60: the check of the limb index comes first in the two commands that have one. -/
theorem limbIndexAboveThreeIsIllegal : Obligations.LimbIndexAboveThreeIsIllegal := by
  intro rd ra rb k s w hk
  have hbad : limbIndexOk k ≠ true := by simpa [limbIndexOk] using hk
  exact ⟨fun h => hbad (wellFormed_of_decode h), fun h => hbad (wellFormed_of_decode h), if_neg hbad, if_neg hbad⟩

/-- Settles O5: the decoder evaluates on the example words. -/
theorem exampleWordsDecode : Obligations.ExampleWordsDecode := by
  unfold Obligations.ExampleWordsDecode
  decide

/-- Settles O6: the shape of each row of the table is evaluated; two rows 0x40 apart meet through the lookup of the second. -/
theorem opcodeMapShape : Obligations.OpcodeMapShape := by
  refine ⟨by decide, ?_, by decide, fun r hr q hq hlow hhigh hopcode => ?_⟩
  · have hnodup := opcodeTable_opcodes_nodup
    rw [← Function.comp_def BitVec.toNat, ← List.map_map] at hnodup
    exact hnodup.of_map _
  · have hop : r.opcode + 0x40#8 = q.opcode := by
      apply BitVec.eq_of_toNat_eq
      rw [hopcode, BitVec.toNat_add]
      exact Nat.mod_eq_of_lt (Nat.add_lt_add_right hhigh 0x40 |>.trans (by decide))
    exact rowFor?_add_0x40 r hr hlow hhigh q (hop ▸ rowFor?_of_mem hq)

/-- Settles O45: every conversion and serializer is well formed, and its word is the sum of its fields. -/
theorem conversionAndSerializerEncodings : Obligations.ConversionAndSerializerEncodings := by
  intro rd ra rb x
  and_intros
  all_goals exact hasEncoding_of_encode rfl (wordR_eq_cmdR ..)

end Sys2Proof.Machine

/-! # Frames of a command, the invariant, the edges (10_state.md, 20_memory.md R53 to R56, 70_reset_and_hazards.md) -/

namespace Sys2Proof.Machine

/-! ### What every command leaves alone -/

/-- Settles O20: no way a command can end touches the rest of the state. -/
theorem commandsLeaveTheOtherStateAlone : Obligations.CommandsLeaveTheOtherStateAlone := by
  intro i s t h
  have hend := exec_ending i s
  rw [h] at hend
  cases hend
  case error | store => exact ⟨rfl, rfl, rfl, rfl, rfl, rfl, rfl⟩
  case reg | storeReg => simp

/-- Settles O17: a register is written only as the destination. -/
theorem onlyTheDestinationRegisterChanges : Obligations.OnlyTheDestinationRegisterChanges := by
  intro i s t r h hdest
  have hend := exec_ending i s
  rw [h] at hend
  cases hend
  case error | store => rfl
  case reg rd v hd _ _ | storeReg _ _ rd v hd _ _ =>
    have hne : r ≠ rd := fun he => hdest (he ▸ hd)
    exact readReg_writeReg_other _ hne v

/-- Settles O18: the ways a command can end that write BUF are those of the storing commands. -/
theorem onlyStoringCommandsChangeBuf : Obligations.OnlyStoringCommandsChangeBuf := by
  intro i s t h hstores a
  have hend := exec_ending i s
  rw [h, hstores] at hend
  cases hend
  case error => rfl
  case reg => rw [respond_buf, writeReg_buf]
  case store _ _ _ hs | storeReg _ _ _ _ _ _ hs => cases hs

/-! ### What a store leaves alone -/

@[simp] theorem length_leBytes {n : Nat} (len : Nat) (v : BitVec n) : (leBytes len v).length = len := by simp [leBytes]

@[simp] theorem length_beBytes {n : Nat} (len : Nat) (v : BitVec n) : (beBytes len v).length = len := by simp [beBytes]

theorem storeOp_frame {n : Nat} {enc : BitVec n → List Byte} {rs ra rb : Reg} {s t : State} {a : Nat}
    (h : storeOp n enc rs ra rb s = .next t) (ha : ∀ j < (enc (view n s rs)).length, a ≠ wrapAddr (bufAddr s ra) j) :
    t.buf.read a = s.buf.read a := by
  unfold storeOp at h
  split at h
  case isTrue => cases h; rfl
  case isFalse =>
    cases h
    exact Memory.read_writeBytes_other _ _ _ _ ha

theorem fmtOp_frame {n : Nat} {rd ra rb : Reg} {radix : Byte} {s t : State} {a : Nat}
    (h : fmtOp n rd ra rb radix s = .next t)
    (ha : ∀ j < (formatDigits n radix.toNat (view n s rb).toNat).length, a ≠ wrapAddr (bufAddr s ra) j) :
    t.buf.read a = s.buf.read a := by
  unfold fmtOp guardDest at h
  split at h
  case isTrue => cases h; rfl
  case isFalse =>
    split at h
    case isTrue => cases h; rfl
    case isFalse =>
      cases h
      rw [respond_buf, writeReg_buf]
      exact Memory.read_writeBytes_other _ _ _ _ ha

/-- Settles O19: the bytes a store writes are those of its access. -/
theorem storingCommandsChangeOnlyTheirBytes : Obligations.StoringCommandsChangeOnlyTheirBytes := by
  intro i s t addr n h hstores hbytes a ha
  cases i
  case bstle128 | bstbe128 | bstle256 | bstbe256 =>
    cases hbytes
    exact storeOp_frame h (by simpa using ha)
  case fmt128 | fmt256 =>
    cases hbytes
    exact fmtOp_frame h ha
  all_goals cases hstores

/-! ### An accepted word -/

theorem acceptCommand_wf {w : CmdWord} {s t : State} (h : acceptCommand w s = .next t) (hw : s.buf.wf) : t.buf.wf := by
  rcases acceptCommand_cases w s with ⟨i, -, hexec⟩ | ⟨e, -, hillegal⟩
  · exact exec_wf (hexec.symm.trans h) hw
  · cases hillegal.symm.trans h
    exact hw

/-- The frame of a command holds of a word that decodes to none, too. -/
theorem acceptCommand_frame {w : CmdWord} {s t : State} (h : acceptCommand w s = .next t) :
    t.busy = true ∧ t.rspPending = false ∧ t.hbRdata = s.hbRdata ∧ t.inReset = s.inReset := by
  rcases acceptCommand_cases w s with ⟨i, -, hexec⟩ | ⟨e, -, hillegal⟩
  · obtain ⟨hbusy, hpending, hrdata, hreset, -⟩ := commandsLeaveTheOtherStateAlone i s t (hexec.symm.trans h)
    exact ⟨hbusy, hpending, hrdata, hreset⟩
  · cases hillegal.symm.trans h
    exact ⟨rfl, rfl, rfl, rfl⟩

/-! ### The invariant -/

theorem acceptCommand_inv {w : CmdWord} {s t : State} (hw : s.buf.wf) (hr : s.inReset = false)
    (h : acceptCommand w s = .next t) : t.Inv := by
  obtain ⟨hbusy, -, -, hreset⟩ := acceptCommand_frame h
  exact ⟨acceptCommand_wf h hw, fun _ => hbusy, fun hc => by rw [hreset, hr] at hc; cases hc⟩

/-- While busy a response is raised without ending busy; taking it ends both (20_memory.md R54). -/
theorem busyEdge_pendingBusy {e : Edge} {s : State} (hb : s.busy = true) (hp : (busyEdge e s).rspPending = true) :
    (busyEdge e s).busy = true := by
  revert hp
  rw [busyEdge]
  split
  · split
    · nofun
    · exact fun _ => hb
  · split <;> exact fun _ => hb

theorem clockEdge_inv {e : Edge} {s t : State} (hs : s.Inv) (h : clockEdge e s = .next t) : t.Inv := by
  obtain ⟨hwf, hpending, -⟩ := hs
  cases hrst : e.rst
  case true =>
    rw [clockEdge_rst hrst] at h
    cases h
    exact ⟨Memory.nil_wf, by simp, by simp⟩
  case false =>
    cases hbusy : s.busy
    case true =>
      cases hen : e.hbEn
      case true =>
        rw [clockEdge_hostWhileBusy hrst hbusy hen] at h
        cases h
      case false =>
        rw [clockEdge_busy hrst hbusy hen] at h
        cases h
        exact ⟨by simpa using hwf, busyEdge_pendingBusy hbusy, nofun⟩
    case false =>
      have hidle : s.rspPending = false := by simpa [hbusy] using hpending
      by_cases haccept : e.cmdValid = true ∧ s.inReset = false
      · rw [clockEdge_accept hrst hbusy haccept.2 haccept.1] at h
        exact acceptCommand_inv (s := { hostAccess e s with inReset := false }) (hostAccess_wf hwf) rfl h
      · have hno : e.cmdValid = false ∨ s.inReset = true := by simpa [or_iff_not_imp_left] using haccept
        rw [clockEdge_idle hrst hbusy hno] at h
        cases h
        exact ⟨hostAccess_wf hwf, by simp [hidle], nofun⟩

/-- Settles O14: a step is a clock edge, and every kind of edge keeps the invariant. -/
theorem everyStepKeepsTheInvariant : Obligations.EveryStepKeepsTheInvariant := by
  intro s t hs h
  exact clockEdge_inv (s := { s with inputs := s.inputs.tail }) ⟨hs.bufWf, hs.pendingBusy, hs.resetIdle⟩ h

/-- Settles O13: after reset BUF is empty and the interface idle. -/
theorem resetStateSatisfiesTheInvariant : Obligations.ResetStateSatisfiesTheInvariant :=
  ⟨Memory.nil_wf, nofun, nofun⟩

/-- Settles O15: the reset values are the definition's. -/
theorem resetStateIsIdle : Obligations.ResetStateIsIdle :=
  ⟨rfl, rfl, rfl, rfl, rfl, rfl, fun _ => rfl⟩

/-! ### The command port -/

/-- Leaving reset changes nothing in a core that is not in reset. -/
theorem eq_self_of_not_inReset {s : State} (h : s.inReset = false) : { s with inReset := false } = s := by rw [← h]

theorem cmdReady_iff (s : State) : cmdReady s = true ↔ s.busy = false ∧ s.inReset = false := by simp [cmdReady]

theorem hostAccess_of_not_en {e : Edge} (h : e.hbEn = false) (s : State) : hostAccess e s = s := by simp [hostAccess, h]

/-- Settles O7: an edge with no host access accepts the word in the state the step began in. -/
theorem stepRunsTheDecodedCommand : Obligations.StepRunsTheDecodedCommand := by
  intro s e rest hinputs hready hrst hen hvalid
  obtain ⟨hbusy, hreset⟩ := (cmdReady_iff s).mp hready
  have hstep : step s = acceptCommand e.cmdWord { s with inputs := rest } := by
    rw [step_eq, hinputs, List.headD_cons, List.tail_cons, clockEdge_accept hrst (by exact hbusy) (by exact hreset) hvalid,
      hostAccess_of_not_en hen, eq_self_of_not_inReset (by exact hreset)]
  refine ⟨fun i hi => ?_, fun err herr => ?_⟩
  · rw [hstep, acceptCommand, hi]
  · rw [hstep]
    exact acceptCommand_endsWith_illegalCommand herr _

/-- Settles O8: an accepting edge ends busy; while busy only `busyEdge` happens. -/
theorem commandHandshake : Obligations.CommandHandshake := by
  refine ⟨fun s t e hrst hvalid hready h => ?_, fun s e hrst hen hbusy hreset => ?_,
    fun s t e hrst hbusy hreset hrsp hready h => ?_⟩
  · obtain ⟨hbusy, hreset⟩ := (cmdReady_iff s).mp hready
    rw [clockEdge_accept hrst hbusy hreset hvalid] at h
    obtain ⟨hbusy', hpending', -⟩ := acceptCommand_frame h
    exact ⟨hbusy', hpending', by simp [cmdReady, hbusy']⟩
  · rw [clockEdge_busy hrst hbusy hen, eq_self_of_not_inReset (by rw [busyEdge_inReset, hreset])]
    rfl
  · cases hen : e.hbEn
    case true =>
      rw [clockEdge_hostWhileBusy hrst hbusy hen] at h
      cases h
    case false =>
      have htaken : busyEdge e s = { s with busy := false, rspPending := false } := by
        rw [busyEdge, if_pos (by exact hrsp), if_pos hready]
      rw [clockEdge_busy hrst hbusy hen, htaken] at h
      cases h
      exact ⟨rfl, rfl, rfl, rfl⟩

/-! ### The host BUF port -/

/-- What `hb_rdata` shows is the host's own access, whatever else happens at the edge (20_memory.md R55). -/
theorem clockEdge_hbRdata {e : Edge} {s t : State} (hrst : e.rst = false) (hbusy : s.busy = false)
    (h : clockEdge e s = .next t) : t.hbRdata = (hostAccess e s).hbRdata := by
  by_cases haccept : e.cmdValid = true ∧ s.inReset = false
  · rw [clockEdge_accept hrst hbusy haccept.2 haccept.1] at h
    obtain ⟨-, -, hrdata, -⟩ := acceptCommand_frame h
    exact hrdata
  · have hno : e.cmdValid = false ∨ s.inReset = true := by simpa [or_iff_not_imp_left] using haccept
    rw [clockEdge_idle hrst hbusy hno] at h
    cases h
    rfl

theorem hostAccess_of_write {e : Edge} (hen : e.hbEn = true) (hwe : e.hbWe = true) (s : State) :
    hostAccess e s = hostWrite e.hbAddr e.hbWdata s := by simp [hostAccess, hen, hwe]

theorem hostAccess_of_read {e : Edge} (hen : e.hbEn = true) (hwe : e.hbWe = false) (s : State) :
    hostAccess e s = hostRead e.hbAddr s := by simp [hostAccess, hen, hwe]

theorem Memory.read_write (m : Memory) (a a' : Nat) (b : Byte) :
    (m.write a b).read a' = if a' = a then some b else m.read a' := by
  split
  case isTrue h => rw [h, Memory.read_write_self]
  case isFalse h => rw [Memory.read_write_other m h]

/-- Settles O9: at an edge with no command the state after the host's access goes on, out of reset. -/
theorem hostBufPortReadsAndWrites : Obligations.HostBufPortReadsAndWrites := by
  refine ⟨fun s e hrst hbusy hen => clockEdge_hostWhileBusy hrst hbusy hen, fun s e hrst hbusy hidle => ?_⟩
  have hno : e.cmdValid = false ∨ s.inReset = true := by simpa [cmdReady, hbusy] using hidle
  refine ⟨_, clockEdge_idle hrst hbusy hno, by simp, by simpa using hbusy, by simpa [cmdReady] using hbusy, by simp, by simp,
    by simp, by simp, fun hen hwe a => ?_, fun hen hwe => ?_, fun hen => ?_⟩
  · rw [hostAccess_of_write hen hwe, hostWrite_buf, Memory.read_write]
  · rw [hostAccess_of_read hen hwe]
    refine ⟨rfl, rfl, fun b hb => hostByte_written hb, fun u hu => ?_⟩
    rw [clockEdge_hbRdata hrst (by exact hbusy) hu, hostAccess_of_read hen hwe]
    rfl
  · rw [hostAccess_of_not_en hen]
    exact ⟨rfl, rfl, rfl⟩

/-- Settles O10: the edge of the access alone ends in the state in which the edge of both accepts the command. -/
theorem hostAccessComesBeforeTheCommand : Obligations.HostAccessComesBeforeTheCommand := by
  intro s u e hrst hready hen hvalid h
  obtain ⟨hbusy, hreset⟩ := (cmdReady_iff s).mp hready
  rw [clockEdge_idle (e := { e with cmdValid := false }) hrst hbusy (.inl rfl)] at h
  cases h
  rw [clockEdge_accept hrst hbusy hreset hvalid]
  exact (clockEdge_accept (e := { e with hbEn := false }) (s := { hostAccess e s with inReset := false }) hrst
    ((hostAccess_busy e s).trans hbusy) rfl hvalid).symm

/-! ### Reset -/

/-- Settles O11: after a reset edge the core is in reset, in which an edge without reset is an idle one. -/
theorem resetEdgeIdlesTheInterface : Obligations.ResetEdgeIdlesTheInterface := by
  intro s e hrst
  refine ⟨resetEdge s, clockEdge_rst hrst s, rfl, rfl, rfl, rfl, fun e' => clockEdge_rst rfl s, fun e' hrst' => ?_⟩
  exact ⟨_, clockEdge_idle hrst' rfl (.inr rfl), by simp [cmdReady], by simp, by simp, by simp⟩

/-- Settles O12: the registers are read from the free words of the reset that the edge counts. -/
theorem resetLeavesRegistersAndBufUnspecified : Obligations.ResetLeavesRegistersAndBufUnspecified := by
  intro s t e hrst h
  rw [clockEdge_rst hrst] at h
  cases h
  refine ⟨rfl, rfl, rfl, fun _ => rfl, rfl, fun r hr => ?_⟩
  have hgeneral : ¬ r.val < 3 := Nat.not_lt.mpr hr
  simp [readReg, hgeneral, Nat.sub_add_cancel hr]

/-! ### Status codes -/

/-- Settles O22: a status has one of eight codes. -/
theorem statusCodes : Obligations.StatusCodes := by
  have hlt : ∀ st : Status, (statusCode st).toNat < 8
    | .ok => by decide
    | .error kind => by cases kind <;> decide
  exact ⟨rfl, rfl, rfl, rfl, rfl, rfl, rfl, rfl, hlt, fun s => hlt s.rspStatus⟩

end Sys2Proof.Machine

/-! # Which errors a command ends with (60_exceptions.md R302 to R309; 10_state.md R34) -/

namespace Sys2Proof.Machine

/-! ### The checks of single operands -/

theorem ambientType?_eq_none_iff (t : Byte) : ambientType? t = none ↔ 12 ≤ t.toNat := by
  revert t; decide

theorem radixOk_iff (radix : Byte) : radixOk radix = true ↔ radix.toNat = 10 ∨ radix.toNat = 16 := by
  revert radix; decide

theorem digitValues?_eq_none_iff (radix : Nat) (bs : List Byte) :
    digitValues? radix bs = none ↔ ∃ c ∈ bs, digitValue? radix c = none := by
  induction bs with
  | nil => simp [digitValues?]
  | cons c cs ih =>
    rw [List.exists_mem_cons_iff, ← ih, digitValues?]
    cases digitValue? radix c <;> cases digitValues? radix cs <;> simp

/-! ### How a command ends, by the errors that hold -/

/-- The four ends of a command: an error reported before BUF is read, a read of a byte that has no value, a character that is no
digit, or status OK. -/
inductive EndsByPriority (i : Instr) (s : State) : Result → Prop where
  | early (e : ErrorKind) (hchar : e ≠ .invalidCharacter) (hholds : ErrorHolds i s e)
      (hfirst : ∀ e', errorPriority e' < errorPriority e → ¬ ErrorHolds i s e') :
      EndsByPriority i s (.next (respond (.error e) s))
  | fault (a : Nat) (hread : s.buf.read a = none) (hloads : i.loadsBuf = true) (hbytes : ¬ BytesWritten i s)
      (hearly : ∀ e, e ≠ .invalidCharacter → ¬ ErrorHolds i s e) : EndsByPriority i s (.fault (.bufByteNeverWritten a))
  | character (hbytes : BytesWritten i s) (hholds : ErrorHolds i s .invalidCharacter)
      (hearly : ∀ e, e ≠ .invalidCharacter → ¬ ErrorHolds i s e) :
      EndsByPriority i s (.next (respond (.error .invalidCharacter) s))
  | ok (t : State) (hst : t.rspStatus = .ok) (hbytes : BytesWritten i s) (hnone : ∀ e, ¬ ErrorHolds i s e) :
      EndsByPriority i s (.next t)

section
variable {i : Instr} {rd : Reg} {s : State}

theorem not_immutable_of_general (hdest : i.dest? = some rd) (hrd : 3 ≤ rd.val) :
    ¬ ErrorHolds i s .immutableConstantViolation := by
  rintro ⟨rd', hdest', hlt⟩
  cases hdest.symm.trans hdest'
  omega

theorem endsByPriority_guardDest {o : Result} (hwf : i.wellFormed = true) (hdest : i.dest? = some rd)
    (h : 3 ≤ rd.val → EndsByPriority i s o) : EndsByPriority i s (guardDest rd s o) := by
  rcases Nat.lt_or_ge rd.val 3 with hlt | hge
  · rw [guardDest_constant hlt]
    refine .early _ (by decide) ⟨rd, hdest, hlt⟩ fun e' he' => ?_
    cases e'
    case illegalCommand => simp [ErrorHolds, hwf]
    all_goals exact absurd he' (by decide)
  · rw [guardDest_general hge]
    exact h hge

theorem endsByPriority_guardLimbIndex {k : Byte} {o : Result} (hwf : i.wellFormed = limbIndexOk k)
    (h : i.wellFormed = true → EndsByPriority i s o) : EndsByPriority i s (guardLimbIndex k s o) := by
  unfold guardLimbIndex
  rw [← hwf]
  split
  case isTrue hk => exact h hk
  case isFalse hk =>
    refine .early .illegalCommand (by decide) (by simpa [ErrorHolds] using hk) fun e' he' => ?_
    cases e' <;> exact absurd he' (by decide)

/-- A command of which the outcome `r` is computed without BUF: beside the violation, the errors that hold are those `r` is. -/
theorem endsByPriority_finishReg {r : Except ErrorKind Word} (hwf : i.wellFormed = true) (hdest : i.dest? = some rd)
    (hread : bytesRead i s = (0, 0)) (herror : ∀ e, r = .error e → e ≠ .invalidCharacter ∧ ErrorHolds i s e)
    (hholds : ∀ e, ErrorHolds i s e → e = .immutableConstantViolation ∨ r = .error e) :
    EndsByPriority i s (finishReg rd r s) := by
  apply endsByPriority_guardDest hwf hdest
  intro hrd
  have honly : ∀ e, ErrorHolds i s e → r = .error e := fun e he =>
    (hholds e he).resolve_left fun himm => not_immutable_of_general hdest hrd (himm ▸ he)
  cases r with
  | error e =>
    obtain ⟨hchar, he⟩ := herror e rfl
    refine .early e hchar he fun e' hlt he' => ?_
    cases honly e' he'
    exact lt_irrefl _ hlt
  | ok v =>
    refine .ok _ rfl (fun j hj => ?_) fun e he => nomatch honly e he
    rw [hread] at hj
    cases hj

/-! The commands that read no BUF byte, check no length and no radix. -/

variable (hwf : i.wellFormed = true) (hdest : i.dest? = some rd) (hread : bytesRead i s = (0, 0)) (hradix : radix? i = none)
  (hlength : exactLength? i = none) (hparsed : parsed? i = none)
include hwf hdest hread hradix hlength hparsed

/-- A command with no operand to check ends with OK once its destination is general (R310). -/
theorem endsByPriority_plain {v : Word} (htype : typeCode? i = none) (hdiv : divisor? i s = none) :
    EndsByPriority i s (finishReg rd (.ok v) s) := by
  refine endsByPriority_finishReg hwf hdest hread nofun fun e he => ?_
  cases e
  case immutableConstantViolation => exact .inl rfl
  all_goals simp_all [ErrorHolds]

/-- A dividing command tests its divisor in the view it divides by (R307). -/
theorem endsByPriority_dividing {n : Nat} {d : BitVec n} {v : Word} (htype : typeCode? i = none)
    (hdiv : divisor? i s = some d.toNat) :
    EndsByPriority i s (finishReg rd (if d = 0 then .error .divideByZero else .ok v) s) := by
  have hzero : ErrorHolds i s .divideByZero ↔ d = 0 := by
    rw [ErrorHolds, hdiv, Option.some_inj, ← BitVec.toNat_inj, BitVec.ofNat_eq_ofNat, BitVec.toNat_zero]
  refine endsByPriority_finishReg hwf hdest hread (fun e he => ?_) fun e he => ?_
  · split at he
    case isTrue hd => cases he; exact ⟨by decide, hzero.mpr hd⟩
    case isFalse => cases he
  · cases e
    case immutableConstantViolation => exact .inl rfl
    case divideByZero => exact .inr (if_pos (hzero.mp he))
    all_goals simp_all [ErrorHolds]

/-- FROM and TO: `r` is an error exactly where the type code names no type. -/
theorem endsByPriority_converting {r : Except ErrorKind Word} {t : Byte} (htype : typeCode? i = some t)
    (hdiv : divisor? i s = none) (hnone : ambientType? t = none → r = .error .unsupportedType)
    (hsome : ∀ ty, ambientType? t = some ty → ∃ v, r = .ok v) : EndsByPriority i s (finishReg rd r s) := by
  have htype' : ErrorHolds i s .unsupportedType ↔ ambientType? t = none := by
    simp [ErrorHolds, htype, ambientType?_eq_none_iff]
  cases ht : ambientType? t with
  | none =>
    refine endsByPriority_finishReg hwf hdest hread (fun e he => ?_) fun e he => ?_
    · cases (hnone ht).symm.trans he
      exact ⟨by decide, htype'.mpr ht⟩
    · cases e
      case immutableConstantViolation => exact .inl rfl
      case unsupportedType => exact .inr (hnone ht)
      all_goals simp_all [ErrorHolds]
  | some ty =>
    obtain ⟨v, rfl⟩ := hsome ty ht
    refine endsByPriority_finishReg hwf hdest hread nofun fun e he => ?_
    cases e
    case immutableConstantViolation => exact .inl rfl
    case unsupportedType => cases ht.symm.trans (htype'.mp he)
    all_goals simp_all [ErrorHolds]

end

/-! The serializers. -/

section
variable {i : Instr} {s : State} {addr len : Nat} (hread : bytesRead i s = (addr, len))
include hread

theorem bytesWritten_of_readBytes {bs : List Byte} (h : s.buf.readBytes addr len = .ok bs) : BytesWritten i s := by
  obtain ⟨rfl, hbytes⟩ := (Memory.readBytes_ok_iff _ _ _ _).mp h
  rw [BytesWritten, hread]
  exact fun j hj hnone => nomatch hnone.symm.trans (hbytes j hj)

theorem endsByPriority_fault {a : Nat} (h : s.buf.readBytes addr len = .error a) (hloads : i.loadsBuf = true)
    (hearly : ∀ e, e ≠ .invalidCharacter → ¬ ErrorHolds i s e) : EndsByPriority i s (.fault (.bufByteNeverWritten a)) := by
  obtain ⟨j, hj, rfl, hnone⟩ := Memory.readBytes_error h
  refine .fault _ hnone hloads (fun hall => ?_) hearly
  rw [BytesWritten, hread] at hall
  exact hall j hj hnone

end

/-- The bytes PARSE has read hold a character that is no digit exactly where the string has no digit values (R308). -/
theorem errorHolds_invalidCharacter_iff {i : Instr} {s : State} {ra rb : Reg} {radix : Byte} {bs : List Byte}
    (hparsed : parsed? i = some (ra, rb, radix)) (h : s.buf.readBytes (bufAddr s ra) (lenOf s rb) = .ok bs) :
    ErrorHolds i s .invalidCharacter ↔ digitValues? radix.toNat bs = none := by
  obtain ⟨hlen, hbytes⟩ := (Memory.readBytes_ok_iff _ _ _ _).mp h
  rw [digitValues?_eq_none_iff, ErrorHolds, hparsed]
  constructor
  · rintro ⟨ra', rb', radix', heq, j, hj, b, hb, hdigit⟩
    cases heq
    have hj' : j < bs.length := hj.trans_eq hlen.symm
    cases hb.symm.trans (hbytes j hj')
    exact ⟨_, List.getElem_mem hj', hdigit⟩
  · rintro ⟨c, hc, hdigit⟩
    obtain ⟨j, hj, rfl⟩ := List.mem_iff_getElem.mp hc
    exact ⟨ra, rb, radix, rfl, j, hj.trans_eq hlen, _, hbytes j hj, hdigit⟩

section
variable {i : Instr} {s : State} {n : Nat} {rd ra rb : Reg} (hwf : i.wellFormed = true) (htype : typeCode? i = none)
  (hdiv : divisor? i s = none)
include hwf htype hdiv

theorem endsByPriority_loadOp {dec : List Byte → Nat} (hdest : i.dest? = some rd) (hloads : i.loadsBuf = true)
    (hread : bytesRead i s = (bufAddr s ra, n / 8)) (hradix : radix? i = none) (hlength : exactLength? i = some (rb, n / 8))
    (hparsed : parsed? i = none) : EndsByPriority i s (loadOp n dec rd ra rb s) := by
  apply endsByPriority_guardDest hwf hdest
  intro hrd
  have himm := not_immutable_of_general (s := s) hdest hrd
  have hlen : ErrorHolds i s .invalidLength ↔ lenOf s rb ≠ n / 8 := by simp [ErrorHolds, hlength, hparsed, lenOf, val]
  split
  case isTrue hne =>
    refine .early .invalidLength (by decide) (hlen.mpr hne) fun e hlt he => ?_
    cases e
    case immutableConstantViolation => exact himm he
    all_goals simp_all [ErrorHolds, errorPriority]
  case isFalse heq =>
    have hnone : ∀ e, ¬ ErrorHolds i s e := fun e he => by
      cases e
      case immutableConstantViolation => exact himm he
      case invalidLength => exact heq (hlen.mp he)
      all_goals simp_all [ErrorHolds]
    split
    case h_1 a ha => exact endsByPriority_fault hread ha hloads fun e _ => hnone e
    case h_2 bs hbs => exact .ok _ rfl (bytesWritten_of_readBytes hread hbs) hnone

theorem endsByPriority_storeOp {enc : BitVec n → List Byte} {rs : Reg} (hdest : i.dest? = none)
    (hread : bytesRead i s = (0, 0)) (hradix : radix? i = none) (hlength : exactLength? i = some (rb, n / 8))
    (hparsed : parsed? i = none) : EndsByPriority i s (storeOp n enc rs ra rb s) := by
  have hlen : ErrorHolds i s .invalidLength ↔ lenOf s rb ≠ n / 8 := by simp [ErrorHolds, hlength, hparsed, lenOf, val]
  unfold storeOp
  split
  case isTrue hne =>
    refine .early .invalidLength (by decide) (hlen.mpr hne) fun e hlt he => ?_
    cases e
    all_goals simp_all [ErrorHolds, errorPriority]
  case isFalse heq =>
    refine .ok _ rfl (bytesWritten_of_readBytes hread (bs := []) rfl) fun e he => ?_
    cases e
    case invalidLength => exact heq (hlen.mp he)
    all_goals simp_all [ErrorHolds]

theorem endsByPriority_fmtOp {radix : Byte} (hdest : i.dest? = some rd) (hread : bytesRead i s = (0, 0))
    (hradix : radix? i = some radix) (hlength : exactLength? i = none) (hparsed : parsed? i = none) :
    EndsByPriority i s (fmtOp n rd ra rb radix s) := by
  apply endsByPriority_guardDest hwf hdest
  intro hrd
  have himm := not_immutable_of_general (s := s) hdest hrd
  have hradix' : ErrorHolds i s .invalidRadix ↔ radixOk radix = false := by
    simp [ErrorHolds, hradix, ← Bool.not_eq_true, radixOk_iff]
  split
  case isTrue hbad =>
    refine .early .invalidRadix (by decide) (hradix'.mpr hbad) fun e hlt he => ?_
    cases e
    case immutableConstantViolation => exact himm he
    all_goals simp_all [ErrorHolds, errorPriority]
  case isFalse hok =>
    refine .ok _ rfl (bytesWritten_of_readBytes hread (bs := []) rfl) fun e he => ?_
    cases e
    case immutableConstantViolation => exact himm he
    case invalidRadix => exact hok (hradix'.mp he)
    all_goals simp_all [ErrorHolds]

theorem endsByPriority_parseOp {radix : Byte} (hdest : i.dest? = some rd) (hloads : i.loadsBuf = true)
    (hread : bytesRead i s = (bufAddr s ra, lenOf s rb)) (hradix : radix? i = some radix) (hlength : exactLength? i = none)
    (hparsed : parsed? i = some (ra, rb, radix)) : EndsByPriority i s (parseOp n rd ra rb radix s) := by
  apply endsByPriority_guardDest hwf hdest
  intro hrd
  have himm := not_immutable_of_general (s := s) hdest hrd
  have hradix' : ErrorHolds i s .invalidRadix ↔ radixOk radix = false := by
    simp [ErrorHolds, hradix, ← Bool.not_eq_true, radixOk_iff]
  have hlen : ErrorHolds i s .invalidLength ↔ lenOf s rb > Config.bufBytes := by
    simp [ErrorHolds, hlength, hparsed, lenOf, val]
  split
  case isTrue hbad =>
    refine .early .invalidRadix (by decide) (hradix'.mpr hbad) fun e hlt he => ?_
    cases e
    case immutableConstantViolation => exact himm he
    all_goals simp_all [ErrorHolds, errorPriority]
  case isFalse hok =>
    have hradix'' := mt hradix'.mp hok
    split
    case isTrue hlong =>
      refine .early .invalidLength (by decide) (hlen.mpr hlong) fun e hlt he => ?_
      cases e
      case immutableConstantViolation => exact himm he
      case invalidRadix => exact hradix'' he
      all_goals simp_all [ErrorHolds, errorPriority]
    case isFalse hshort =>
      have hearly : ∀ e, e ≠ .invalidCharacter → ¬ ErrorHolds i s e := fun e hne he => by
        cases e
        case immutableConstantViolation => exact himm he
        case invalidRadix => exact hradix'' he
        case invalidLength => exact hshort (hlen.mp he)
        all_goals simp_all [ErrorHolds]
      split
      case h_1 a ha => exact endsByPriority_fault hread ha hloads hearly
      case h_2 bs hbs =>
        have hwritten := bytesWritten_of_readBytes hread hbs
        have hchar := errorHolds_invalidCharacter_iff hparsed hbs
        split
        case h_1 hnone => exact .character hwritten (hchar.mpr hnone) hearly
        case h_2 ds hds =>
          refine .ok _ rfl hwritten fun e he => ?_
          rcases eq_or_ne e .invalidCharacter with rfl | hne
          · cases hds.symm.trans (hchar.mp he)
          · exact hearly e hne he

end

/-- Every command ends by the first error that holds. -/
theorem exec_endsByPriority (i : Instr) (s : State) : EndsByPriority i s (exec i s) := by
  cases i
  case limbget | limbset =>
    exact endsByPriority_guardLimbIndex rfl fun hwf => endsByPriority_plain hwf rfl rfl rfl rfl rfl rfl rfl
  case div128 rd ra rb | rem128 rd ra rb | divmod128 rd ra rb =>
    exact endsByPriority_dividing rfl rfl rfl rfl rfl rfl rfl (congrArg some (view_toNat 128 s rb).symm)
  case div256 rd ra rb | rem256 rd ra rb =>
    exact endsByPriority_dividing rfl rfl rfl rfl rfl rfl rfl (congrArg some (view_256_toNat s rb).symm)
  case muldiv128 rd ra rb rc =>
    exact endsByPriority_dividing rfl rfl rfl rfl rfl rfl rfl (congrArg some (view_toNat 128 s rc).symm)
  case divmod128x64 rd ra rb =>
    refine endsByPriority_dividing rfl rfl rfl rfl rfl rfl rfl (congrArg some ?_)
    rw [BitVec.toNat_setWidth_of_le (by decide), limb0_toNat]
  case from128 rd ra t | from256 rd ra t | to128 rd ra t | to256 rd ra t =>
    refine endsByPriority_converting (t := t) rfl rfl rfl rfl rfl rfl rfl rfl (fun h => ?_) fun ty h => ?_
    · rw [h]
    · rw [h]; exact ⟨_, rfl⟩
  case bldle128 | bldle256 | bldbe128 | bldbe256 => exact endsByPriority_loadOp rfl rfl rfl rfl rfl rfl rfl rfl rfl
  case bstle128 | bstle256 | bstbe128 | bstbe256 => exact endsByPriority_storeOp rfl rfl rfl rfl rfl rfl rfl rfl
  case parse128 | parse256 => exact endsByPriority_parseOp rfl rfl rfl rfl rfl rfl rfl rfl rfl
  case fmt128 | fmt256 => exact endsByPriority_fmtOp rfl rfl rfl rfl rfl rfl rfl rfl
  all_goals exact endsByPriority_plain rfl rfl rfl rfl rfl rfl rfl rfl

/-! ### The statements -/

theorem errorPriority_injective : Function.Injective errorPriority := by
  intro e e'
  cases e <;> cases e' <;> decide

/-- Settles O23: of two errors with nothing before them, each is the other. -/
theorem errorsFollowThePriorityOrder : Obligations.ErrorsFollowThePriorityOrder := by
  intro i s
  have hend := exec_endsByPriority i s
  generalize exec i s = o at hend
  refine ⟨fun e hne he hfirst => ?_, fun hbytes hchar honly => ?_, fun hbytes hnone => ?_⟩
  · cases hend
    case early e' _ he' hfirst' =>
      have hle := not_lt.mp fun hlt => hfirst' e hlt he
      rw [errorPriority_injective (le_antisymm (hfirst e' he') hle)]
      rfl
    case fault hearly | character hearly => exact absurd he (hearly e hne)
    case ok hnone => exact absurd he (hnone e)
  · cases hend
    case early e hne he _ => exact absurd (honly e he) hne
    case fault hbytes' _ => exact absurd hbytes hbytes'
    case character => rfl
    case ok hnone => exact absurd hchar (hnone _)
  · cases hend
    case early e _ he _ => exact absurd he (hnone e)
    case fault hbytes' _ => exact absurd hbytes hbytes'
    case character hchar _ => exact absurd hchar (hnone _)
    case ok t hst _ _ => exact ⟨t, rfl, hst⟩

/-- Settles O24: a command stops exactly where no earlier error ends it and a byte it reads has no value. -/
theorem onlyUnwrittenBytesStopACommand : Obligations.OnlyUnwrittenBytesStopACommand := by
  intro i s
  have hend := exec_endsByPriority i s
  generalize exec i s = o at hend
  refine ⟨fun f hf => ?_, fun r hr => ?_, fun hloads hbytes hearly => ?_⟩
  · cases hend
    case fault a hread hloads hbytes hearly =>
      cases hf
      exact ⟨hloads, hbytes, hearly, a, rfl, hread⟩
    all_goals cases hf
  · subst hr
    cases hend
  · cases hend
    case early e hne he _ => exact absurd he (hearly e hne)
    case fault a _ _ _ _ => exact ⟨a, rfl⟩
    case character hbytes' _ _ | ok hbytes' _ => exact absurd hbytes' hbytes

end Sys2Proof.Machine

/-! # What a result depends on, and where it leaves zeros (10_state.md R25, R32) -/

namespace Sys2Proof.Machine

/-! ### Reads of states that agree on a register -/

section
variable {s s' : State} {r : Reg} (h : readReg s r = readReg s' r)
include h

theorem view_congr (n : Nat) : view n s r = view n s' r := by rw [view, view, h]
theorem limb0_congr : limb0 s r = limb0 s' r := by rw [limb0, limb0, h]
theorem carryBit_congr : carryBit s r = carryBit s' r := by rw [carryBit, carryBit, h]
theorem sint64_congr : sint64 s r = sint64 s' r := by rw [sint64, sint64, limb0_congr h]
theorem bufAddr_congr : bufAddr s r = bufAddr s' r := by rw [bufAddr, bufAddr, h]
theorem lenOf_congr : lenOf s r = lenOf s' r := by rw [lenOf, lenOf, h]

end

/-! ### The same end in two states -/

/-- Two ends that write the same, each in its own state. -/
inductive SameEnd (dest : Option Reg) (s s' : State) : Result → Result → Prop where
  | error (e : ErrorKind) : SameEnd dest s s' (.next (respond (.error e) s)) (.next (respond (.error e) s'))
  | reg (rd : Reg) (v : Word) (hd : dest = some rd) :
      SameEnd dest s s' (.next (respond .ok (writeReg s rd v))) (.next (respond .ok (writeReg s' rd v)))
  | store (addr : Nat) (bs : List Byte) (hd : dest = none) :
      SameEnd dest s s' (.next (respond .ok { s with buf := s.buf.writeBytes addr bs }))
        (.next (respond .ok { s' with buf := s'.buf.writeBytes addr bs }))
  | storeReg (addr : Nat) (bs : List Byte) (rd : Reg) (v : Word) (hd : dest = some rd) :
      SameEnd dest s s' (.next (respond .ok (writeReg { s with buf := s.buf.writeBytes addr bs } rd v)))
        (.next (respond .ok (writeReg { s' with buf := s'.buf.writeBytes addr bs } rd v)))
  | fault (f : Fault) : SameEnd dest s s' (.fault f) (.fault f)

section
variable {s s' : State} {rd : Reg}

theorem sameEnd_guardDest {o o' : Result} (h : SameEnd (some rd) s s' o o') :
    SameEnd (some rd) s s' (guardDest rd s o) (guardDest rd s' o') := by
  unfold guardDest
  split
  · exact .error _
  · exact h

theorem sameEnd_finishReg {r r' : Except ErrorKind Word} (h : r = r') :
    SameEnd (some rd) s s' (finishReg rd r s) (finishReg rd r' s') := by
  subst h
  apply sameEnd_guardDest
  cases r with
  | error e => exact .error e
  | ok v => exact .reg rd v rfl

theorem sameEnd_ok {v v' : Word} (h : v = v') :
    SameEnd (some rd) s s' (finishReg rd (.ok v) s) (finishReg rd (.ok v') s') := sameEnd_finishReg (congrArg _ h)

theorem sameEnd_guardLimbIndex {dest : Option Reg} {k : Byte} {o o' : Result} (h : SameEnd dest s s' o o') :
    SameEnd dest s s' (guardLimbIndex k s o) (guardLimbIndex k s' o') := by
  unfold guardLimbIndex
  split
  · exact h
  · exact .error _

variable {ra rb : Reg} (ha : readReg s ra = readReg s' ra) (hb : readReg s rb = readReg s' rb)
include ha hb

theorem sameEnd_loadOp (n : Nat) (dec : List Byte → Nat) (hbuf : s.buf = s'.buf) :
    SameEnd (some rd) s s' (loadOp n dec rd ra rb s) (loadOp n dec rd ra rb s') := by
  apply sameEnd_guardDest
  rw [lenOf_congr hb, bufAddr_congr ha, hbuf]
  split
  · exact .error _
  · split
    · exact .fault _
    · exact .reg rd _ rfl

theorem sameEnd_parseOp (n : Nat) (radix : Byte) (hbuf : s.buf = s'.buf) :
    SameEnd (some rd) s s' (parseOp n rd ra rb radix s) (parseOp n rd ra rb radix s') := by
  apply sameEnd_guardDest
  rw [lenOf_congr hb, bufAddr_congr ha, hbuf]
  split
  · exact .error _
  · split
    · exact .error _
    · split
      · exact .fault _
      · split
        · exact .error _
        · exact .reg rd _ rfl

theorem sameEnd_fmtOp (n : Nat) (radix : Byte) :
    SameEnd (some rd) s s' (fmtOp n rd ra rb radix s) (fmtOp n rd ra rb radix s') := by
  apply sameEnd_guardDest
  rw [view_congr hb, bufAddr_congr ha]
  split
  · exact .error _
  · exact .storeReg _ _ rd _ rfl

theorem sameEnd_storeOp {rs : Reg} (hs : readReg s rs = readReg s' rs) (n : Nat) (enc : BitVec n → List Byte) :
    SameEnd none s s' (storeOp n enc rs ra rb s) (storeOp n enc rs ra rb s') := by
  unfold storeOp
  rw [lenOf_congr hb, bufAddr_congr ha, view_congr hs]
  split
  · exact .error _
  · exact .store _ _ rfl

end

/-- A command ends the same in two states that agree on its sources and, if it reads BUF, on BUF. -/
theorem exec_sameEnd {i : Instr} {s s' : State} (hsrc : ∀ r ∈ i.sources, readReg s r = readReg s' r)
    (hbuf : i.loadsBuf = true → s.buf = s'.buf) : SameEnd i.dest? s s' (exec i s) (exec i s') := by
  cases i
  all_goals simp only [Instr.sources, List.forall_mem_cons, List.not_mem_nil, false_implies, implies_true, and_true] at hsrc
  case bldle128 | bldle256 | bldbe128 | bldbe256 => exact sameEnd_loadOp hsrc.1 hsrc.2 _ _ (hbuf rfl)
  case parse128 | parse256 => exact sameEnd_parseOp hsrc.1 hsrc.2 _ _ (hbuf rfl)
  case fmt128 | fmt256 => exact sameEnd_fmtOp hsrc.1 hsrc.2 _ _
  case bstle128 | bstle256 | bstbe128 | bstbe256 =>
    obtain ⟨hs, ha, hb⟩ := hsrc
    exact sameEnd_storeOp ha hb hs _ _
  case limbget => exact sameEnd_guardLimbIndex (sameEnd_ok (by rw [hsrc]))
  case limbset =>
    obtain ⟨ha, hb⟩ := hsrc
    exact sameEnd_guardLimbIndex (sameEnd_ok (by rw [ha, limb0_congr hb]))
  case from128 | from256 => exact sameEnd_finishReg (by rw [hsrc])
  case to128 | to256 => exact sameEnd_finishReg (by rw [view_congr hsrc])
  case div128 | div256 | rem128 | rem256 | divmod128 =>
    obtain ⟨ha, hb⟩ := hsrc
    exact sameEnd_finishReg (by rw [view_congr ha, view_congr hb])
  case divmod128x64 =>
    obtain ⟨ha, hb⟩ := hsrc
    exact sameEnd_finishReg (by rw [view_congr ha, limb0_congr hb])
  case muldiv128 =>
    obtain ⟨ha, hb, hc⟩ := hsrc
    exact sameEnd_finishReg (by rw [view_congr ha, view_congr hb, view_congr hc])
  all_goals refine sameEnd_ok ?_
  case ldi => rfl
  case adc64 | sbb64 =>
    obtain ⟨ha, hb, hc⟩ := hsrc
    rw [limb0_congr ha, limb0_congr hb, carryBit_congr hc]
  case wmul64 =>
    obtain ⟨ha, hb⟩ := hsrc
    rw [limb0_congr ha, limb0_congr hb]
  case mac64 =>
    obtain ⟨hd, ha, hb, hc⟩ := hsrc
    rw [limb0_congr hd, limb0_congr ha, limb0_congr hb, limb0_congr hc]
  case pow128 | pow256 | shl128 | shl256 | shr128 | shr256 =>
    obtain ⟨ha, hb⟩ := hsrc
    rw [view_congr ha, sint64_congr hb]
  case sqrt128 | sqrt256 | not128 | not256 | shli128 | shli256 | shri128 | shri256 | clz128 | clz256 | ctz128 | ctz256 |
      inc128 | inc256 | dec128 | dec256 | set128 | set256 =>
    rw [view_congr hsrc]
  all_goals
    obtain ⟨ha, hb⟩ := hsrc
    rw [view_congr ha, view_congr hb]

/-- Writing the same bytes to two memories: each address has the byte written last, or is as it was in both. -/
theorem Memory.read_writeBytes_or (m m' : Memory) (addr : Nat) (bs : List Byte) (a : Nat) :
    (m.writeBytes addr bs).read a = (m'.writeBytes addr bs).read a ∨
      ((m.writeBytes addr bs).read a = m.read a ∧ (m'.writeBytes addr bs).read a = m'.read a) := by
  induction bs generalizing m m' addr with
  | nil => exact .inr ⟨rfl, rfl⟩
  | cons b bs ih =>
    rcases ih (m.write (wrapAddr addr 0) b) (m'.write (wrapAddr addr 0) b) (addr + 1) with heq | ⟨h, h'⟩
    · exact .inl heq
    · rw [Memory.read_write] at h h'
      by_cases ha : a = wrapAddr addr 0
      · rw [if_pos ha] at h h'
        exact .inl (h.trans h'.symm)
      · rw [if_neg ha] at h h'
        exact .inr ⟨h, h'⟩

theorem readReg_writeReg_congr (s s' : State) (r : Reg) (v : Word) :
    readReg (writeReg s r v) r = readReg (writeReg s' r v) r := by
  rcases Nat.lt_or_ge r.val 3 with hlt | hge
  · rw [readReg_constant _ hlt, readReg_constant _ hlt]
  · rw [readReg_writeReg_self _ hge, readReg_writeReg_self _ hge]

/-- Settles O25: the two ends write the same value and the same bytes. -/
theorem resultDependsOnlyOnTheOperands : Obligations.ResultDependsOnlyOnTheOperands := by
  intro i s s' t t' hsrc hbuf h h'
  have hsame := exec_sameEnd hsrc hbuf
  rw [h, h'] at hsame
  cases hsame
  case error => exact ⟨rfl, nofun, fun _ => .inr ⟨rfl, rfl⟩⟩
  case reg rd v hd =>
    refine ⟨rfl, fun _ rd' hd' => ?_, fun _ => .inr ⟨by simp, by simp⟩⟩
    cases hd.symm.trans hd'
    exact readReg_writeReg_congr s s' rd v
  case store addr bs hd =>
    refine ⟨rfl, fun _ rd' hd' => ?_, fun a => Memory.read_writeBytes_or _ _ addr bs a⟩
    cases hd.symm.trans hd'
  case storeReg addr bs rd v hd =>
    refine ⟨rfl, fun _ rd' hd' => ?_, fun a => ?_⟩
    · cases hd.symm.trans hd'
      exact readReg_writeReg_congr _ _ rd v
    · simp only [respond_buf, writeReg_buf]
      exact Memory.read_writeBytes_or _ _ addr bs a

end Sys2Proof.Machine

/-! # The 128-bit type leaves limbs 2 and 3 zero (10_state.md R25) -/

namespace Sys2Proof.Machine

/-! ### Bounds of the values written -/

theorem zext_lt {n m : Nat} (hn : n ≤ m) (v : BitVec n) : (zext v).toNat < 2 ^ m := by
  rw [zext, BitVec.toNat_setWidth]
  exact (Nat.mod_le _ _).trans_lt (v.isLt.trans_le (Nat.pow_le_pow_right two_pos hn))

theorem ofNat_lt {a m : Nat} (h : a < 2 ^ m) : (BitVec.ofNat 256 a).toNat < 2 ^ m := by
  rw [BitVec.toNat_ofNat]
  exact (Nat.mod_le _ _).trans_lt h

theorem clz_le {n : Nat} (a : BitVec n) : clz a ≤ n := Nat.sub_le _ _

theorem truth_lt (b : Bool) : (truth b).toNat < 2 ^ 128 := by cases b <;> decide

theorem uintToFloat_le (fmt : FloatFormat) (v : Nat) : uintToFloat fmt v ≤ finitePatterns fmt := by
  rcases eq_or_ne v 0 with rfl | hne
  · exact Nat.zero_le _
  · obtain ⟨m, -, hround⟩ := exists_isNearestEven_uintToFloat fmt hne
    exact hround ▸ min_le_right _ _

/-- TO never widens a 128-bit value. -/
theorem toAmbient_lt (a : BitVec 128) (ty : AmbientType) : (toAmbient 128 a ty).toNat < 2 ^ 128 := by
  have hcut : ∀ w, (zext (a.setWidth w)).toNat < 2 ^ 128 := fun w => by
    rw [zext, BitVec.toNat_setWidth, BitVec.toNat_setWidth]
    exact ((Nat.mod_le _ _).trans (Nat.mod_le _ _)).trans_lt a.isLt
  cases ty with
  | bool => rw [toAmbient]; split <;> decide
  | unsigned w => exact hcut w
  | signed w => exact hcut w
  | float fmt => exact ofNat_lt ((uintToFloat_le fmt _).trans_lt (by cases fmt <;> decide))
  | other => exact hcut _

theorem fromLE_lt (bs : List Byte) : fromLE bs < 2 ^ (8 * bs.length) := by
  induction bs with
  | nil => simp [fromLE]
  | cons b bs ih =>
    have hb := b.isLt
    rw [fromLE, List.length_cons, Nat.mul_succ, Nat.pow_add]
    omega

theorem fromBE_lt (bs : List Byte) : fromBE bs < 2 ^ (8 * bs.length) := by
  rw [← List.length_reverse]
  exact fromLE_lt _

theorem accumulate_lt (n radix : Nat) (ds : List Nat) : accumulate n radix ds < 2 ^ n := by
  cases ds using List.reverseRecOn with
  | nil => exact Nat.two_pow_pos n
  | append_singleton ds d =>
    rw [accumulate, List.foldl_append]
    exact Nat.mod_lt _ (Nat.two_pow_pos n)

theorem length_digitsLE_le (radix fuel v : Nat) : (digitsLE radix fuel v).length ≤ fuel := by
  induction fuel generalizing v with
  | zero => exact le_rfl
  | succ fuel ih =>
    rw [digitsLE]
    split
    · exact Nat.zero_le _
    · exact Nat.succ_le_succ (ih _)

theorem length_formatDigits_le {n : Nat} (hn : 0 < n) (radix v : Nat) : (formatDigits n radix v).length ≤ n := by
  rw [formatDigits]
  split
  · exact hn
  · rw [List.length_reverse, List.length_map]
    exact length_digitsLE_le radix n v

/-! ### The ends of the 128-bit commands -/

/-- A command that ends with OK leaves less than `2^128` in the register. -/
def WritesNarrow (rd : Reg) (o : Result) : Prop := ∀ t, o = .next t → t.rspStatus = .ok → val t rd < 2 ^ 128

section
variable {rd ra rb : Reg} {s : State}

theorem writesNarrow_error (e : ErrorKind) : WritesNarrow rd (.next (respond (.error e) s)) := by
  rintro t ⟨⟩ ⟨⟩

theorem writesNarrow_write (hrd : 3 ≤ rd.val) {v : Word} (hv : v.toNat < 2 ^ 128) :
    WritesNarrow rd (.next (respond .ok (writeReg s rd v))) := by
  rintro t ⟨⟩ -
  rwa [val, readReg_respond, readReg_writeReg_self _ hrd]

theorem writesNarrow_guardDest {o : Result} (h : 3 ≤ rd.val → WritesNarrow rd o) : WritesNarrow rd (guardDest rd s o) := by
  rcases Nat.lt_or_ge rd.val 3 with hlt | hge
  · rw [guardDest_constant hlt]
    exact writesNarrow_error _
  · rw [guardDest_general hge]
    exact h hge

theorem writesNarrow_finishReg {r : Except ErrorKind Word} (h : ∀ v, r = .ok v → v.toNat < 2 ^ 128) :
    WritesNarrow rd (finishReg rd r s) := by
  apply writesNarrow_guardDest
  intro hrd
  cases r with
  | error e => exact writesNarrow_error e
  | ok v => exact writesNarrow_write hrd (h v rfl)

theorem writesNarrow_ok {v : Word} (h : v.toNat < 2 ^ 128) : WritesNarrow rd (finishReg rd (.ok v) s) :=
  writesNarrow_finishReg fun _ hv => Except.ok.inj hv ▸ h

theorem writesNarrow_divideOp {n : Nat} (hn : n ≤ 128) (f : BitVec n → BitVec n → BitVec n) :
    WritesNarrow rd (divideOp n f rd ra rb s) := by
  refine writesNarrow_finishReg fun v hv => ?_
  split at hv <;> cases hv
  exact zext_lt hn _

theorem writesNarrow_fromOp {n : Nat} (hn : n ≤ 128) (t : Byte) : WritesNarrow rd (fromOp n rd ra t s) := by
  refine writesNarrow_finishReg fun v hv => ?_
  split at hv <;> cases hv
  exact zext_lt hn _

theorem writesNarrow_toOp (t : Byte) : WritesNarrow rd (toOp 128 rd ra t s) := by
  refine writesNarrow_finishReg fun v hv => ?_
  split at hv <;> cases hv
  exact toAmbient_lt _ _

theorem writesNarrow_loadOp {dec : List Byte → Nat} (hdec : ∀ bs, dec bs < 2 ^ (8 * bs.length)) :
    WritesNarrow rd (loadOp 128 dec rd ra rb s) := by
  apply writesNarrow_guardDest
  intro hrd
  split
  · exact writesNarrow_error _
  · split
    · nofun
    · rename_i bs hbs
      obtain ⟨hlen, -⟩ := (Memory.readBytes_ok_iff _ _ _ _).mp hbs
      exact writesNarrow_write hrd (ofNat_lt (by simpa [hlen] using hdec bs))

theorem writesNarrow_parseOp (radix : Byte) : WritesNarrow rd (parseOp 128 rd ra rb radix s) := by
  apply writesNarrow_guardDest
  intro hrd
  split
  · exact writesNarrow_error _
  · split
    · exact writesNarrow_error _
    · split
      · nofun
      · split
        · exact writesNarrow_error _
        · exact writesNarrow_write hrd (ofNat_lt (accumulate_lt 128 _ _))

theorem writesNarrow_fmtOp (radix : Byte) : WritesNarrow rd (fmtOp 128 rd ra rb radix s) := by
  apply writesNarrow_guardDest
  intro hrd
  split
  · exact writesNarrow_error _
  · exact writesNarrow_write hrd (ofNat_lt ((length_formatDigits_le (by decide) _ _).trans_lt (by decide)))

end

/-- The results of the group 01 commands are 128-bit values, counts, truth values or lengths. -/
theorem exec_writesNarrow {i : Instr} {rd : Reg} (hgroup : (opOf (encode i)).toNat / 0x40 = 1) (hdest : i.dest? = some rd)
    (s : State) : WritesNarrow rd (exec i s) := by
  cases i
  all_goals
    simp only [encode, opOf_wordR, opOf_wordI] at hgroup
    cases hdest
  case div128 | rem128 => exact writesNarrow_divideOp le_rfl _
  case muldiv128 =>
    refine writesNarrow_finishReg fun v hv => ?_
    split at hv <;> cases hv
    exact zext_lt le_rfl _
  case clz128 => exact writesNarrow_ok (ofNat_lt ((clz_le _).trans_lt (by decide)))
  case ctz128 => exact writesNarrow_ok (ofNat_lt ((ctz_le _).trans_lt (by decide)))
  case cmpeq128 | cmplt128 | cmple128 | cmpgt128 | cmpge128 => exact writesNarrow_ok (truth_lt _)
  case from128 => exact writesNarrow_fromOp le_rfl _
  case to128 => exact writesNarrow_toOp _
  case bldle128 => exact writesNarrow_loadOp fromLE_lt
  case bldbe128 => exact writesNarrow_loadOp fromBE_lt
  case parse128 => exact writesNarrow_parseOp _
  case fmt128 => exact writesNarrow_fmtOp _
  case add128 | sub128 | mul128 | pow128 | sqrt128 | and128 | or128 | xor128 | not128 | shl128 | shr128 | shli128 | shri128 |
      inc128 | dec128 | set128 =>
    exact writesNarrow_ok (zext_lt le_rfl _)
  all_goals exact absurd hgroup (by decide)

theorem limbVal_eq_zero {v k : Nat} (h : v < 2 ^ (64 * k)) : limbVal v k = 0 := by
  rw [limbVal, Nat.div_eq_of_lt h, Nat.zero_mod]

/-- Settles O26: the value a 128-bit command writes is below `2^128`. -/
theorem results128LeaveTheHighLimbsZero : Obligations.Results128LeaveTheHighLimbsZero := by
  intro i s t rd hgroup h hst hdest
  have hlt := exec_writesNarrow hgroup hdest s t h hst
  exact ⟨limbVal_eq_zero hlt, limbVal_eq_zero (hlt.trans (by decide)), hlt⟩

end Sys2Proof.Machine

/-! # Consequences of the rules: limbs, arithmetic laws, the order of comparisons, pseudo-instructions (40_limb.md, 41_arith.md R141,
42_bitwise_shift_compare.md R182, 30_encoding.md R82) -/

namespace Sys2Proof.Machine

/-! ### Using a rule -/

theorem RegRule.writes {i : Instr} {w : CmdWord} {rd : Reg} {v : State → Nat} (h : RegRule i w rd v) (hrd : 3 ≤ rd.val)
    (s : State) : Writes (exec i s) rd (v s) s := by
  obtain ⟨-, hrule⟩ := h
  exact (hrule s).2 hrd

theorem RegRuleErr.writes {i : Instr} {w : CmdWord} {rd : Reg} {e : ErrorKind} {fails : State → Prop} {v : State → Nat}
    (h : RegRuleErr i w rd e fails v) (hrd : 3 ≤ rd.val) {s : State} (hf : ¬ fails s) : Writes (exec i s) rd (v s) s := by
  obtain ⟨-, hrule⟩ := h
  obtain ⟨-, -, hok⟩ := hrule s
  exact hok hrd hf

theorem Writes.congr {o : Result} {rd : Reg} {v v' : Nat} {s : State} (h : Writes o rd v s) (hv : v = v') :
    Writes o rd v' s := hv ▸ h

/-- What the destination holds after a write that fits it. -/
theorem Writes.val_eq {o : Result} {rd : Reg} {v : Nat} {s t : State} (h : Writes o rd v s) (ho : o = .next t)
    (hrd : 3 ≤ rd.val) (hv : v < 2 ^ 256) : val t rd = v := by
  cases h.symm.trans ho
  rw [val, readReg_respond, readReg_writeReg_self _ hrd, BitVec.toNat_ofNat, Nat.mod_eq_of_lt hv]

theorem val_lt (s : State) (r : Reg) : val s r < 2 ^ 256 := (readReg s r).isLt

theorem low_one (s : State) {w : Nat} (hw : w ≠ 0) : low w s 1 = 1 := by
  rw [low, val_one, Nat.mod_eq_of_lt (Nat.one_lt_two_pow hw)]

/-! ### Multiply and accumulate (R103, R104) -/

theorem mac_lt {a b c d : Nat} (ha : a < 2 ^ 64) (hb : b < 2 ^ 64) (hc : c < 2 ^ 64) (hd : d < 2 ^ 64) :
    d + a * b + c < 2 ^ 128 := by
  have hab : a * b ≤ (2 ^ 64 - 1) * (2 ^ 64 - 1) := Nat.mul_le_mul (Nat.le_sub_one_of_lt ha) (Nat.le_sub_one_of_lt hb)
  omega

/-- Settles O28: the values are the model's sums and products of limbs read as numbers. -/
theorem wmul64AndMac64 : Obligations.Wmul64AndMac64 := by
  intro rd ra rb rc
  refine ⟨regRule_of_finishReg (hasEncoding_of_encode rfl (wordR_eq_cmdR ..)) fun s => ?_,
    regRule_of_finishReg (hasEncoding_of_encode rfl (wordR_eq_cmdR ..)) fun s => ?_,
    fun s => mac_lt (low_lt 64 s ra) (low_lt 64 s rb) (low_lt 64 s rc) (low_lt 64 s rd)⟩
  · rw [exec, execWmul64, limb0_toNat, limb0_toNat]
  · rw [exec, execMac64, limb0_toNat, limb0_toNat, limb0_toNat, limb0_toNat]

/-! ### Arithmetic laws (R141) -/

/-- Settles O38: floor quotient and remainder of natural numbers. -/
theorem quotientAndRemainderRebuildTheDividend : Obligations.QuotientAndRemainderRebuildTheDividend := by
  intro s rd ra rb hrd
  obtain ⟨hdiv128, hdiv256, hrem128, hrem256⟩ := divAndRem rd ra rb
  refine ⟨fun h => ?_, fun h => ?_⟩
  · exact ⟨_, _, hdiv128.writes hrd h, hrem128.writes hrd h, Nat.mod_lt _ (Nat.pos_of_ne_zero h), Nat.div_add_mod' _ _⟩
  · exact ⟨_, _, hdiv256.writes hrd h, hrem256.writes hrd h, Nat.mod_lt _ (Nat.pos_of_ne_zero h), Nat.div_add_mod' _ _⟩

/-- Settles O39: Max + One is a multiple of 2^N. -/
theorem addingMaxThenOneGivesBackTheValue : Obligations.AddingMaxThenOneGivesBackTheValue := by
  intro s t u rd ra hrd
  obtain ⟨hmax128, hmax256, -⟩ := addAndSubWrap rd ra 2
  obtain ⟨hone128, hone256, -⟩ := addAndSubWrap rd rd 1
  refine ⟨fun ht hu => ?_, fun ht hu => ?_⟩
  · have hlt := low_lt 128 s ra
    have hval : val t rd = (low 128 s ra + low 128 s 2) % 2 ^ 128 := (hmax128.writes hrd s).val_eq ht hrd (by omega)
    rw [(hone128.writes hrd t).val_eq hu hrd (by omega), low_one t (by decide), low, hval, low, low, val_max]
    rw [low] at hlt
    omega
  · have hlt := val_lt s ra
    have hval : val t rd = (val s ra + val s 2) % 2 ^ 256 := (hmax256.writes hrd s).val_eq ht hrd (by omega)
    rw [(hone256.writes hrd t).val_eq hu hrd (by omega), val_one, hval, val_max]
    omega

/-! ### The order over the limbs (R182) -/

/-- Of two numbers split at `p`, the one with the smaller high part is smaller; equal high parts leave it to the low parts. -/
theorem add_mul_lt_add_mul_iff {p a a' b b' : Nat} (ha : a < p) (ha' : a' < p) :
    a + p * b < a' + p * b' ↔ b < b' ∨ (b = b' ∧ a < a') := by
  rcases lt_trichotomy b b' with hlt | rfl | hgt
  · have hmul : p * (b + 1) ≤ p * b' := Nat.mul_le_mul_left p hlt
    rw [Nat.mul_succ] at hmul
    omega
  · omega
  · have hmul : p * (b' + 1) ≤ p * b := Nat.mul_le_mul_left p hgt
    rw [Nat.mul_succ] at hmul
    omega

theorem mod_limbs_lt_iff (x y n : Nat) :
    x % 2 ^ (64 * n) < y % 2 ^ (64 * n) ↔
      ∃ k < n, limbVal x k < limbVal y k ∧ ∀ j < n, k < j → limbVal x j = limbVal y j := by
  induction n with
  | zero => simp [Nat.mod_one]
  | succ n ih =>
    have hpos := Nat.two_pow_pos (64 * n)
    rw [mod_limbs_succ, mod_limbs_succ, add_mul_lt_add_mul_iff (Nat.mod_lt _ hpos) (Nat.mod_lt _ hpos), ih,
      Nat.exists_lt_succ_right, or_comm]
    simp only [Nat.forall_lt_succ_right]
    refine or_congr ⟨?_, ?_⟩ ⟨fun h => ⟨h, fun j hj hnj => absurd hj hnj.asymm, fun hn => absurd hn (lt_irrefl n)⟩, And.left⟩
    · rintro ⟨heq, k, hk, hlt, hrest⟩
      exact ⟨k, hk, hlt, hrest, fun _ => heq⟩
    · rintro ⟨k, hk, hlt, hrest, heq⟩
      exact ⟨heq hk, k, hk, hlt, hrest⟩

/-- Settles O44: the order of numbers is the lexicographic order of their four limbs. -/
theorem compareIsLexicographicOverLimbs : Obligations.CompareIsLexicographicOverLimbs := by
  intro s t rd ra rb hrd h
  obtain ⟨-, -, -, -, -, -, hcmplt, -⟩ := comparisonsWriteOneOrZero rd ra rb
  have hval : val t rd = if val s ra < val s rb then 1 else 0 :=
    (hcmplt.writes hrd s).val_eq h hrd (by split <;> decide)
  have hlex := mod_limbs_lt_iff (val s ra) (val s rb) 4
  rw [Nat.mod_eq_of_lt (val_lt s ra), Nat.mod_eq_of_lt (val_lt s rb)] at hlex
  rw [hval, ← hlex]
  split
  case isTrue hlt => exact ⟨⟨fun _ => hlt, fun _ => rfl⟩, .inr rfl⟩
  case isFalse hnlt => exact ⟨⟨nofun, fun hlt => absurd hlt hnlt⟩, .inl rfl⟩

/-! ### Pseudo-instructions (R82) -/

theorem wrapInt_neg (w : Nat) {a : Nat} (ha : a ≤ 2 ^ w) : wrapInt w ((0 : Nat) - a : Int) = (2 ^ w - a) % 2 ^ w := by
  rw [← wrapInt_natCast]
  apply wrapInt_congr
  push_cast [ha]
  rw [Int.modEq_iff_dvd]
  exact ⟨1, by ring⟩

/-- Settles O59: each meaning is the expansion's rule at its operands. -/
theorem pseudoInstructionMeanings : Obligations.PseudoInstructionMeanings := by
  refine ⟨fun xd xa => ⟨rfl, rfl, rfl, rfl, rfl, rfl, rfl, rfl, rfl, rfl⟩, fun xd xa s hxd => ?_⟩
  have hset128 : ∀ ra, Writes (exec (.set128 xd ra) s) xd (low 128 s ra) s := fun ra => by
    obtain ⟨-, -, -, -, -, -, -, -, hset, -⟩ := bitwiseAndSet xd ra 0
    exact hset.writes hxd s
  have hset256 : ∀ ra, Writes (exec (.set256 xd ra) s) xd (val s ra) s := fun ra => by
    obtain ⟨-, -, -, -, -, -, -, -, -, hset⟩ := bitwiseAndSet xd ra 0
    exact hset.writes hxd s
  obtain ⟨-, -, hsub128, hsub256, -⟩ := addAndSubWrap xd 0 xa
  obtain ⟨-, -, -, -, -, -, -, hshri⟩ := shiftsBySignedAmounts xd xa 0 128
  obtain ⟨-, hlimb⟩ := ldiLimbgetAndLimbset
  obtain ⟨hget, -⟩ := hlimb xd xa 0 1 (by decide)
  have hlow0 : low 128 s 0 = 0 := by rw [low, val_zero]; rfl
  refine ⟨hset128 xa, hset256 xa, (hset256 0).congr (val_zero s), (hset128 2).congr ?_, (hset256 2).congr (val_max s),
    (hsub128.writes hxd s).congr ?_, (hsub256.writes hxd s).congr ?_, hget.writes hxd s, hshri.writes hxd s, hset128 xa⟩
  · rw [low, val_max]; rfl
  · rw [hlow0]
    exact wrapInt_neg 128 (low_lt 128 s xa).le
  · rw [val_zero]
    exact wrapInt_neg 256 (val_lt s xa).le

end Sys2Proof.Machine

/-! # Conversions of booleans, integers, the other width; float round trips (43_convert.md R200, R201, R207 to R211) -/

namespace Sys2Proof.Machine

/-! ### FROM and TO by the type their code names -/

theorem fromOp_of_none {t : Byte} (ht : ambientType? t = none) (n : Nat) (rd ra : Reg) (s : State) :
    fromOp n rd ra t s = finishReg rd (.error .unsupportedType) s := by rw [fromOp, ht]

theorem fromOp_of_some {t : Byte} {ty : AmbientType} (ht : ambientType? t = some ty) (n : Nat) (rd ra : Reg) (s : State) :
    fromOp n rd ra t s = finishReg rd (.ok (zext (fromAmbient n (readReg s ra) ty))) s := by rw [fromOp, ht]

theorem toOp_of_none {t : Byte} (ht : ambientType? t = none) (n : Nat) (rd ra : Reg) (s : State) :
    toOp n rd ra t s = finishReg rd (.error .unsupportedType) s := by rw [toOp, ht]

theorem toOp_of_some {t : Byte} {ty : AmbientType} (ht : ambientType? t = some ty) (n : Nat) (rd ra : Reg) (s : State) :
    toOp n rd ra t s = finishReg rd (.ok (toAmbient n (view n s ra) ty)) s := by rw [toOp, ht]

theorem writes_fromOp {t : Byte} {ty : AmbientType} (ht : ambientType? t = some ty) {rd : Reg} (hrd : 3 ≤ rd.val)
    {n v : Nat} {ra : Reg} {s : State} (hv : (fromAmbient n (readReg s ra) ty).toNat = v) :
    Writes (fromOp n rd ra t s) rd v s :=
  writes_of_finishReg (by rw [fromOp_of_some ht, zext_eq_ofNat, hv]) hrd

theorem endsWith_fromOp {t : Byte} (ht : 12 ≤ t.toNat) {rd : Reg} (hrd : 3 ≤ rd.val) (n : Nat) (ra : Reg) (s : State) :
    EndsWith (fromOp n rd ra t s) .unsupportedType s :=
  endsWith_of_finishReg (fromOp_of_none ((ambientType?_eq_none_iff t).mpr ht) n rd ra s) hrd

theorem writes_toOp {t : Byte} {ty : AmbientType} (ht : ambientType? t = some ty) {rd : Reg} (hrd : 3 ≤ rd.val)
    {n v : Nat} {ra : Reg} {s : State} (hv : (toAmbient n (view n s ra) ty).toNat = v) :
    Writes (toOp n rd ra t s) rd v s :=
  writes_of_finishReg (by rw [toOp_of_some ht, ← hv, BitVec.ofNat_toNat, BitVec.setWidth_eq]) hrd

theorem endsWith_toOp {t : Byte} (ht : 12 ≤ t.toNat) {rd : Reg} (hrd : 3 ≤ rd.val) (n : Nat) (ra : Reg) (s : State) :
    EndsWith (toOp n rd ra t s) .unsupportedType s :=
  endsWith_of_finishReg (toOp_of_none ((ambientType?_eq_none_iff t).mpr ht) n rd ra s) hrd

theorem ambientType?_unsigned {c w : Nat} (h : (c, w) ∈ [(1, 8), (2, 16), (3, 32), (4, 64)]) :
    ambientType? (BitVec.ofNat 8 c) = some (.unsigned w) ∧ w ≤ 64 := by
  simp only [List.mem_cons, List.not_mem_nil, or_false, Prod.mk.injEq] at h
  obtain ⟨rfl, rfl⟩ | ⟨rfl, rfl⟩ | ⟨rfl, rfl⟩ | ⟨rfl, rfl⟩ := h <;> decide

theorem ambientType?_signed {c w : Nat} (h : (c, w) ∈ [(5, 8), (6, 16), (7, 32), (8, 64)]) :
    ambientType? (BitVec.ofNat 8 c) = some (.signed w) ∧ 0 < w ∧ w ≤ 64 := by
  simp only [List.mem_cons, List.not_mem_nil, or_false, Prod.mk.injEq] at h
  obtain ⟨rfl, rfl⟩ | ⟨rfl, rfl⟩ | ⟨rfl, rfl⟩ | ⟨rfl, rfl⟩ := h <;> decide

theorem ambientType?_zero : ambientType? 0 = some .bool := rfl

theorem ambientType?_eleven : ambientType? 11 = some .other := rfl

/-! ### What FROM makes of a register value (R207, R208) -/

theorem readReg_eq_zero_iff (s : State) (r : Reg) : readReg s r = 0 ↔ val s r = 0 := by
  rw [val, ← BitVec.toNat_inj, BitVec.ofNat_eq_ofNat, BitVec.toNat_zero]

theorem fromAmbient_bool_toNat {n : Nat} (hn : 0 < n) (s : State) (ra : Reg) :
    (fromAmbient n (readReg s ra) .bool).toNat = if val s ra = 0 then 0 else 1 := by
  rw [fromAmbient, apply_ite BitVec.toNat]
  exact if_congr (readReg_eq_zero_iff s ra) rfl (BitVec.toNat_one hn)

/-- A zero-extended field is the field. -/
theorem toNat_setWidth_setWidth {w n : Nat} (hw : w ≤ n) (s : State) (ra : Reg) :
    (((readReg s ra).setWidth w).setWidth n).toNat = low w s ra := by
  rw [BitVec.toNat_setWidth_of_le hw, BitVec.toNat_setWidth]
  rfl

theorem toInt_eq_sintOf {w : Nat} (hw : 0 < w) (a : BitVec w) : a.toInt = sintOf w a.toNat := by
  obtain ⟨k, rfl⟩ := Nat.exists_eq_add_one.mpr hw
  have hpow : 2 ^ (k + 1) = 2 * 2 ^ k := by ring
  rw [BitVec.toInt_eq_toNat_cond, sintOf, Nat.add_sub_cancel]
  push_cast
  exact if_congr (by omega) rfl rfl

theorem fromAmbient_signed_toNat {w : Nat} (hw : 0 < w) (n : Nat) (s : State) (ra : Reg) :
    (fromAmbient n (readReg s ra) (.signed w)).toNat = wrapInt n (sintOf w (low w s ra)) := by
  rw [fromAmbient, BitVec.signExtend, BitVec.toNat_ofInt, toInt_eq_sintOf hw, BitVec.toNat_setWidth, wrapInt]
  norm_cast

/-- Settles O46: by the type of each code. -/
theorem fromIntegersAndOther : Obligations.FromIntegersAndOther := by
  intro rd ra s hrd
  refine ⟨writes_fromOp ambientType?_zero hrd (fromAmbient_bool_toNat (by decide) s ra),
    writes_fromOp ambientType?_zero hrd (fromAmbient_bool_toNat (by decide) s ra), fun c w hcw => ?_, fun c w hcw => ?_,
    writes_fromOp ambientType?_eleven hrd ?_,
    writes_fromOp ambientType?_eleven hrd (toNat_setWidth_setWidth (by decide) s ra),
    fun t ht => ⟨endsWith_fromOp ht hrd 128 ra s, endsWith_fromOp ht hrd 256 ra s⟩⟩
  · obtain ⟨htype, hw⟩ := ambientType?_unsigned hcw
    exact ⟨writes_fromOp htype hrd (toNat_setWidth_setWidth (by omega) s ra),
      writes_fromOp htype hrd (toNat_setWidth_setWidth (by omega) s ra)⟩
  · obtain ⟨htype, hpos, -⟩ := ambientType?_signed hcw
    exact ⟨writes_fromOp htype hrd (fromAmbient_signed_toNat hpos 128 s ra),
      writes_fromOp htype hrd (fromAmbient_signed_toNat hpos 256 s ra)⟩
  · change (((readReg s ra).setWidth 256).setWidth 128).toNat = val s ra % 2 ^ 128
    rw [BitVec.setWidth_eq, BitVec.toNat_setWidth]
    rfl

/-! ### What TO makes of an N-bit value (R209, R210) -/

theorem toAmbient_bool_toNat (n : Nat) (s : State) (ra : Reg) :
    (toAmbient n (view n s ra) .bool).toNat = if low n s ra = 0 then 0 else 1 := by
  have hzero : view n s ra = 0 ↔ low n s ra = 0 := by
    rw [← view_toNat, ← BitVec.toNat_inj, BitVec.ofNat_eq_ofNat, BitVec.toNat_zero]
  rw [toAmbient, apply_ite BitVec.toNat]
  exact if_congr hzero rfl rfl

theorem zext_setWidth_view_toNat {w : Nat} (hw : w ≤ 256) (n : Nat) (s : State) (ra : Reg) :
    (zext ((view n s ra).setWidth w)).toNat = low n s ra % 2 ^ w := by
  rw [zext_toNat hw, BitVec.toNat_setWidth, view_toNat]

/-- The signed types are cut from the value as the unsigned ones are (R209). -/
theorem writes_toOp_integer {c w : Nat}
    (h : (c, w) ∈ [(1, 8), (2, 16), (3, 32), (4, 64), (5, 8), (6, 16), (7, 32), (8, 64)]) {rd : Reg} (hrd : 3 ≤ rd.val)
    (n : Nat) (ra : Reg) (s : State) : Writes (toOp n rd ra (BitVec.ofNat 8 c) s) rd (low n s ra % 2 ^ w) s := by
  rcases List.mem_append (s := [(1, 8), (2, 16), (3, 32), (4, 64)]).mp h with hu | hs
  · obtain ⟨htype, hw⟩ := ambientType?_unsigned hu
    exact writes_toOp htype hrd (zext_setWidth_view_toNat (by omega) n s ra)
  · obtain ⟨htype, -, hw⟩ := ambientType?_signed hs
    exact writes_toOp htype hrd (zext_setWidth_view_toNat (by omega) n s ra)

/-- Settles O48: by the type of each code. -/
theorem toIntegersAndOther : Obligations.ToIntegersAndOther := by
  intro rd ra s hrd
  rw [← low_256]
  refine ⟨writes_toOp ambientType?_zero hrd (toAmbient_bool_toNat 128 s ra),
    writes_toOp ambientType?_zero hrd (toAmbient_bool_toNat 256 s ra),
    fun c w hcw => ⟨writes_toOp_integer hcw hrd 128 ra s, writes_toOp_integer hcw hrd 256 ra s⟩,
    writes_toOp ambientType?_eleven hrd ?_,
    writes_toOp ambientType?_eleven hrd (zext_setWidth_view_toNat (by decide) 256 s ra),
    fun t ht => ⟨endsWith_toOp ht hrd 128 ra s, endsWith_toOp ht hrd 256 ra s⟩⟩
  refine (zext_setWidth_view_toNat le_rfl 128 s ra).trans (Nat.mod_eq_of_lt ?_)
  exact (low_lt 128 s ra).trans (by decide)

/-! ### Round trips through floats (R211) -/

/-- A value of no more bits than the significand has a pattern of its own. -/
theorem exists_exact_pattern (fmt : FloatFormat) {v : Nat} (hv : v < 2 ^ (fracBits fmt + 1)) :
    ∃ b < finitePatterns fmt, floatMagnitude fmt b = v := by
  have hpos : 0 < finitePatterns fmt := by cases fmt <;> decide
  rcases eq_or_ne v 0 with rfl | hne
  · refine ⟨0, hpos, ?_⟩
    rw [floatMagnitude_eq, significand]
    cases fmt <;> exact zero_mul _
  · obtain ⟨d, hd⟩ := Nat.exists_eq_add_of_le (bitlen_le hv)
    obtain ⟨hlow, hhigh⟩ := bitlen_spec hne
    have hlen := bitlen_pos hne
    have hmlow : 2 ^ fracBits fmt ≤ v * 2 ^ d := by
      have hfrac : fracBits fmt = bitlen v - 1 + d := by omega
      rw [hfrac, pow_add]
      exact Nat.mul_le_mul_right _ hlow
    have hmhigh : v * 2 ^ d ≤ 2 ^ (fracBits fmt + 1) := by
      rw [hd, pow_add]
      exact Nat.mul_le_mul_right _ hhigh.le
    have hbias : fracBits fmt < expBias fmt := by cases fmt <;> decide
    have hfin : (expBias fmt + fracBits fmt - 1 - d) * 2 ^ fracBits fmt + v * 2 ^ d < finitePatterns fmt := by
      have hexp : expBias fmt + fracBits fmt - 1 - d + 2 < 2 ^ expBits fmt - 1 := by rw [two_pow_expBits]; omega
      have hmul := Nat.mul_lt_mul_of_pos_right hexp (Nat.two_pow_pos (fracBits fmt))
      rw [finitePatterns_eq]
      rw [pow_succ] at hmhigh
      rw [add_mul] at hmul
      omega
    have hunit : unitOf fmt (expBias fmt + fracBits fmt - 1 - d) = (2 ^ d)⁻¹ := by
      rw [unitOf, ← zpow_natCast, ← zpow_neg]
      congr 1
      omega
    refine ⟨_, hfin, ?_⟩
    rw [floatMagnitude_add (.inr hmlow) hmhigh hfin, hunit, Nat.cast_mul, Nat.cast_pow, Nat.cast_ofNat,
      mul_inv_cancel_right₀ (by positivity)]

/-- A value that has a pattern of its own is rounded to itself. -/
theorem floatMagnitude_of_roundsToNearestEven {fmt : FloatFormat} {v b : Nat} (hround : RoundsToNearestEven fmt v b)
    (hv : v < 2 ^ (fracBits fmt + 1)) : floatMagnitude fmt b = v := by
  obtain ⟨-, hnearest⟩ := hround
  obtain ⟨b', hb', hexact⟩ := exists_exact_pattern fmt hv
  by_cases heq : b' = b
  · exact heq ▸ hexact
  · have hzero : |floatMagnitude fmt b' - v| = 0 := by rw [hexact, sub_self, abs_zero]
    rcases hnearest b' hb' heq with hlt | ⟨hsame, -⟩
    · exact absurd (hzero ▸ hlt) (abs_nonneg _).not_gt
    · exact sub_eq_zero.mp (abs_eq_zero.mp (hsame.trans hzero))

/-- A non-negative finite pattern has a clear sign bit and an exponent field that is not all ones (R202). -/
theorem fields_of_lt_finitePatterns {fmt : FloatFormat} {b : Nat} (hb : b < finitePatterns fmt) :
    b < 2 ^ (floatWidth fmt - 1) ∧ expField fmt b ≠ 2 ^ expBits fmt - 1 := by
  cases fmt
  all_goals
    simp only [finitePatterns, floatWidth, expField, fracBits, expBits] at *
    omega

/-- TO, then FROM, by the same float type, of a value that TO rounds to nearest and that the significand holds. -/
theorem toOp_fromOp_float {t : Byte} {fmt : FloatFormat} (ht : ambientType? t = some (.float fmt)) {n : Nat} (hn : n ≤ 256)
    {rd ra : Reg} (hrd : 3 ≤ rd.val) {s s' u : State} (hv : low n s ra < 2 ^ (fracBits fmt + 1))
    (hround : RoundsToNearestEven fmt (low n s ra) (uintToFloat fmt (low n s ra))) (hto : toOp n rd ra t s = .next s')
    (hfrom : fromOp n rd rd t s' = .next u) : val u rd = low n s ra := by
  obtain ⟨hsign, hexp⟩ := fields_of_lt_finitePatterns hround.1
  have hwide : 2 ^ (floatWidth fmt - 1) ≤ 2 ^ 256 ∧ 2 ^ (floatWidth fmt - 1) ≤ 2 ^ floatWidth fmt := by
    cases fmt <;> decide
  have hval : val s' rd = uintToFloat fmt (low n s ra) :=
    (writes_toOp_float ht hrd n ra s).val_eq hto hrd (hsign.trans_le hwide.1)
  have hlow : low (floatWidth fmt) s' rd = uintToFloat fmt (low n s ra) := by
    rw [low, hval, Nat.mod_eq_of_lt (hsign.trans_le hwide.2)]
  have hw := writes_fromOp_finite ht hrd (ra := rd) (s := s') (by rwa [hlow]) n
  rw [hlow, Nat.div_eq_of_lt hsign, if_neg (by decide), floatMagnitude_of_roundsToNearestEven hround hv, Int.floor_natCast,
    wrapInt_natCast, Nat.mod_eq_of_lt (low_lt n s ra)] at hw
  exact hw.val_eq hfrom hrd ((low_lt n s ra).trans_le (Nat.pow_le_pow_right two_pos hn))

/-- Settles O51: below the precision TO rounds nothing, and FROM truncates nothing. -/
theorem floatRoundTripIsExactBelowThePrecision : Obligations.FloatRoundTripIsExactBelowThePrecision := by
  intro s t u rd ra hrd
  have hsingle : ∀ n, low n s ra < 2 ^ 24 → RoundsToNearestEven .binary32 (low n s ra) (uintToFloat .binary32 (low n s ra)) :=
    fun n hv => by
      have hbelow := uintToFloat_binary32 (low n s ra)
      rwa [if_pos (hv.trans (by decide))] at hbelow
  rw [← low_256 s ra]
  refine ⟨fun hv => ?_, fun hv => ?_, fun hv => ?_, fun hv => ?_⟩
  · exact toOp_fromOp_float ambientType?_ten (by decide) hrd hv (roundsToNearestEven_binary64 (hv.trans (by decide)))
  · exact toOp_fromOp_float ambientType?_ten le_rfl hrd hv (roundsToNearestEven_binary64 (hv.trans (by decide)))
  · exact toOp_fromOp_float ambientType?_nine (by decide) hrd hv (hsingle 128 hv)
  · exact toOp_fromOp_float ambientType?_nine le_rfl hrd hv (hsingle 256 hv)

end Sys2Proof.Machine

/-! # Byte serializers (44_serialize.md R231 to R238; 20_memory.md R44) -/

namespace Sys2Proof.Machine

/-! ### Positional sums

The values of byte arrays and of strings are both sums of digits times powers of a base. -/

theorem ofDigits_map_range (b n : Nat) (d : Nat → Nat) :
    Nat.ofDigits b ((List.range n).map d) = ∑ j ∈ Finset.range n, d j * b ^ j := by
  induction n with
  | zero => simp
  | succ n ih =>
    rw [List.range_succ, List.map_append, Nat.ofDigits_append, ih, Finset.sum_range_succ, List.length_map, List.length_range,
      List.map_singleton, Nat.ofDigits_singleton, mul_comm (d n)]

theorem reverse_map_range {α : Type} (n : Nat) (f : Nat → α) :
    ((List.range n).map f).reverse = (List.range n).map fun j => f (n - 1 - j) := by
  apply List.ext_getElem <;> simp

theorem ofDigits_reverse_map_range (b n : Nat) (d : Nat → Nat) :
    Nat.ofDigits b ((List.range n).map d).reverse = ∑ j ∈ Finset.range n, d j * b ^ (n - 1 - j) := by
  rw [reverse_map_range, ofDigits_map_range, ← Finset.sum_range_reflect]
  refine Finset.sum_congr rfl fun j hj => ?_
  rw [Nat.sub_sub_self (Nat.le_sub_one_of_lt (Finset.mem_range.mp hj))]

/-! ### Byte order (R44) -/

theorem fromLE_eq_ofDigits (bs : List Byte) : fromLE bs = Nat.ofDigits (2 ^ 8) (bs.map BitVec.toNat) := by
  induction bs with
  | nil => rfl
  | cons b bs ih => rw [fromLE, ih, List.map_cons, Nat.ofDigits_cons]

theorem fromLE_map_range (n : Nat) (b : Nat → Byte) :
    fromLE ((List.range n).map b) = ∑ j ∈ Finset.range n, (b j).toNat * 2 ^ (8 * j) := by
  simp only [fromLE_eq_ofDigits, List.map_map, ofDigits_map_range, Function.comp_apply, pow_mul]

theorem fromBE_map_range (n : Nat) (b : Nat → Byte) :
    fromBE ((List.range n).map b) = ∑ j ∈ Finset.range n, (b j).toNat * 2 ^ (8 * (n - 1 - j)) := by
  simp only [fromBE, fromLE_eq_ofDigits, List.map_reverse, List.map_map, ofDigits_reverse_map_range, Function.comp_apply,
    pow_mul]

theorem byteOf_toNat {n : Nat} (v : BitVec n) (j : Nat) : (byteOf v j).toNat = v.toNat / 2 ^ (8 * j) % 2 ^ 8 := by
  rw [byteOf, BitVec.extractLsb'_toNat, Nat.shiftRight_eq_div_pow]

theorem fromLE_leBytes {n : Nat} (len : Nat) (v : BitVec n) : fromLE (leBytes len v) = v.toNat % 2 ^ (8 * len) := by
  rw [leBytes, fromLE_map_range]
  induction len with
  | zero => simp [Nat.mod_one]
  | succ len ih => rw [Finset.sum_range_succ, ih, byteOf_toNat, Nat.mul_succ, pow_add, Nat.mod_mul, mul_comm (_ % 2 ^ 8)]

theorem beBytes_eq_reverse {n : Nat} (len : Nat) (v : BitVec n) : beBytes len v = (leBytes len v).reverse :=
  (reverse_map_range len (byteOf v)).symm

theorem fromBE_beBytes {n : Nat} (len : Nat) (v : BitVec n) : fromBE (beBytes len v) = v.toNat % 2 ^ (8 * len) := by
  rw [fromBE, beBytes_eq_reverse, List.reverse_reverse, fromLE_leBytes]

/-- A byte inside the N-bit view is the byte of the register. -/
theorem byteOf_view {n j : Nat} (hj : 8 * j + 8 ≤ n) (s : State) (r : Reg) :
    byteOf (view n s r) j = BitVec.ofNat 8 (val s r / 2 ^ (8 * j)) := by
  apply BitVec.eq_of_toNat_eq
  obtain ⟨k, rfl⟩ := Nat.exists_eq_add_of_le hj
  rw [byteOf_toNat, view_toNat, low, add_assoc, pow_add, Nat.mod_mul_right_div_self, pow_add, Nat.mod_mul_right_mod,
    BitVec.toNat_ofNat]

/-! ### Bytes of BUF -/

theorem Memory.readBytes_of_read {m : Memory} {addr n : Nat} {b : Nat → Byte}
    (h : ∀ j < n, m.read (wrapAddr addr j) = some (b j)) : m.readBytes addr n = .ok ((List.range n).map b) := by
  rw [Memory.readBytes_ok_iff]
  refine ⟨by simp, fun j hj => ?_⟩
  rw [h j (by simpa using hj), List.getElem_map, List.getElem_range]

theorem Memory.readBytes_writeBytes (m : Memory) (addr : Nat) {bs : List Byte} (hl : bs.length ≤ 256) :
    (m.writeBytes addr bs).readBytes addr bs.length = .ok bs := by
  rw [Memory.readBytes_ok_iff]
  exact ⟨rfl, fun j hj => Memory.read_writeBytes_self m addr bs hl j hj⟩

/-! ### Loads -/

theorem lenOf_eq_val (s : State) (r : Reg) : lenOf s r = val s r := rfl

section
variable {n : Nat} {dec : List Byte → Nat} {rd ra rb : Reg} {s : State} (hrd : 3 ≤ rd.val)
include hrd

theorem endsWith_loadOp (h : val s rb ≠ n / 8) : EndsWith (loadOp n dec rd ra rb s) .invalidLength s := by
  rw [EndsWith, loadOp, guardDest_general hrd, lenOf_eq_val, if_pos h]
  rfl

theorem writes_loadOp {bs : List Byte} (hlen : val s rb = n / 8)
    (hread : s.buf.readBytes (bufAddr s ra) (n / 8) = .ok bs) : Writes (loadOp n dec rd ra rb s) rd (dec bs) s := by
  rw [Writes, loadOp, guardDest_general hrd, lenOf_eq_val, if_neg (not_not.mpr hlen), hread]
  rfl

theorem writes_loadOp_of_read {b : Nat → Byte} (hlen : val s rb = n / 8)
    (hread : ∀ j < n / 8, s.buf.read ((val s ra % 256 + j) % 256) = some (b j)) :
    Writes (loadOp n dec rd ra rb s) rd (dec ((List.range (n / 8)).map b)) s :=
  writes_loadOp hrd hlen (Memory.readBytes_of_read hread)

end

/-- Settles O52: the four loads are `loadOp`, and the two decoders are the sums of R44. -/
theorem loadsDecodeTheBytes : Obligations.LoadsDecodeTheBytes := by
  intro rd ra rb s hrd
  refine ⟨fun h => ⟨endsWith_loadOp hrd h, endsWith_loadOp hrd h⟩, fun h => ⟨endsWith_loadOp hrd h, endsWith_loadOp hrd h⟩,
    fun b hlen hread => ⟨?_, ?_⟩, fun b hlen hread => ⟨?_, ?_⟩⟩
  · exact (writes_loadOp_of_read (n := 128) hrd hlen hread).congr (fromLE_map_range 16 b)
  · exact (writes_loadOp_of_read (n := 128) hrd hlen hread).congr (fromBE_map_range 16 b)
  · exact (writes_loadOp_of_read (n := 256) hrd hlen hread).congr (fromLE_map_range 32 b)
  · exact (writes_loadOp_of_read (n := 256) hrd hlen hread).congr (fromBE_map_range 32 b)

/-! ### Stores -/

section
variable {n : Nat} {enc : BitVec n → List Byte} {rs ra rb : Reg} {s : State}

theorem endsWith_storeOp (h : val s rb ≠ n / 8) : EndsWith (storeOp n enc rs ra rb s) .invalidLength s := if_pos h

theorem storeOp_of_length (h : val s rb = n / 8) :
    storeOp n enc rs ra rb s =
      .next (respond .ok { s with buf := s.buf.writeBytes (bufAddr s ra) (enc (view n s rs)) }) := if_neg (not_not.mpr h)

/-- What a store of the bytes `g` does: those bytes from the address on, nothing else. -/
theorem storeOp_stores {g : Nat → Byte} (h : val s rb = n / 8) (hn : n / 8 ≤ 256)
    (hlength : (enc (view n s rs)).length = n / 8) (hbyte : ∀ j < n / 8, (enc (view n s rs))[j]? = some (g j)) :
    ∃ t, storeOp n enc rs ra rb s = .next t ∧ t = respond .ok { s with buf := t.buf } ∧
      (∀ j < n / 8, t.buf.read ((val s ra % 256 + j) % 256) = some (g j)) ∧
      ∀ a, (∀ j < n / 8, a ≠ (val s ra % 256 + j) % 256) → t.buf.read a = s.buf.read a := by
  refine ⟨_, storeOp_of_length h, rfl, fun j hj => ?_, fun a ha => ?_⟩
  · rw [← hbyte j hj, List.getElem?_eq_getElem (hj.trans_eq hlength.symm)]
    exact Memory.read_writeBytes_self _ _ _ (hlength.trans_le hn) j _
  · exact Memory.read_writeBytes_other _ _ _ _ fun j hj => ha j (hj.trans_eq hlength)

end

theorem getElem?_leBytes_view {n len j : Nat} (hlen : 8 * len = n) (hj : j < len) (s : State) (r : Reg) :
    (leBytes len (view n s r))[j]? = some (BitVec.ofNat 8 (val s r / 2 ^ (8 * j))) := by
  rw [leBytes, List.getElem?_map, List.getElem?_range hj, Option.map_some, byteOf_view (by omega)]

theorem getElem?_beBytes_view {n len j : Nat} (hlen : 8 * len = n) (hj : j < len) (s : State) (r : Reg) :
    (beBytes len (view n s r))[j]? = some (BitVec.ofNat 8 (val s r / 2 ^ (8 * (len - 1 - j)))) := by
  rw [beBytes, List.getElem?_map, List.getElem?_range hj, Option.map_some, byteOf_view (by omega)]

/-- Settles O53: the four stores are `storeOp`, and the bytes of a view are the bytes of the register. -/
theorem storesEncodeTheBytes : Obligations.StoresEncodeTheBytes := by
  intro rs ra rb s n le be h
  simp only [List.mem_cons, List.not_mem_nil, or_false, Prod.mk.injEq] at h
  obtain ⟨rfl, rfl, rfl⟩ | ⟨rfl, rfl, rfl⟩ := h
  · refine ⟨fun hne => ⟨endsWith_storeOp hne, endsWith_storeOp hne⟩, fun hlen => ⟨?_, ?_⟩⟩
    · exact storeOp_stores (n := 128) hlen (by decide) (length_leBytes 16 _) fun j hj => getElem?_leBytes_view rfl hj s rs
    · exact storeOp_stores (n := 128) hlen (by decide) (length_beBytes 16 _) fun j hj => getElem?_beBytes_view rfl hj s rs
  · refine ⟨fun hne => ⟨endsWith_storeOp hne, endsWith_storeOp hne⟩, fun hlen => ⟨?_, ?_⟩⟩
    · exact storeOp_stores (n := 256) hlen (by decide) (length_leBytes 32 _) fun j hj => getElem?_leBytes_view rfl hj s rs
    · exact storeOp_stores (n := 256) hlen (by decide) (length_beBytes 32 _) fun j hj => getElem?_beBytes_view rfl hj s rs

/-! ### A load after a store -/

/-- The load's operands are registers, which the store left as they were; it reads back the bytes the store wrote. -/
theorem writes_loadOp_of_storeOp {n : Nat} {enc : BitVec n → List Byte} {dec : List Byte → Nat} {rs ra rb rd : Reg}
    {s t : State} (hrd : 3 ≤ rd.val) (hst : t.rspStatus = .ok) (hn : n / 8 ≤ 256)
    (hlength : (enc (view n s rs)).length = n / 8) (hinv : dec (enc (view n s rs)) = low n s rs)
    (h : storeOp n enc rs ra rb s = .next t) : Writes (loadOp n dec rd ra rb t) rd (low n s rs) t := by
  by_cases hlen : val s rb = n / 8
  · injection (storeOp_of_length hlen).symm.trans h with ht
    have hregs : ∀ r, readReg t r = readReg s r := fun r => ht ▸ rfl
    refine (writes_loadOp (bs := enc (view n s rs)) hrd (by rw [val, hregs]; exact hlen) ?_).congr hinv
    rw [bufAddr_congr (hregs ra), ← ht, respond_buf, ← hlength]
    exact Memory.readBytes_writeBytes _ _ (hlength.trans_le hn)
  · cases (endsWith_storeOp hlen).symm.trans h
    cases hst

/-- Settles O54: each decoder inverts the encoder of its order. -/
theorem loadAfterStoreGivesTheValue : Obligations.LoadAfterStoreGivesTheValue := by
  intro s t rs ra rb rd hrd hst
  have hle : ∀ {n : Nat} (len : Nat), 8 * len = n → fromLE (leBytes len (view n s rs)) = low n s rs := fun len h => by
    rw [fromLE_leBytes, view_toNat, h, Nat.mod_eq_of_lt (low_lt _ s rs)]
  have hbe : ∀ {n : Nat} (len : Nat), 8 * len = n → fromBE (beBytes len (view n s rs)) = low n s rs := fun len h => by
    rw [fromBE_beBytes, view_toNat, h, Nat.mod_eq_of_lt (low_lt _ s rs)]
  rw [← low_256 s rs]
  refine ⟨?_, ?_, ?_, ?_⟩
  · exact writes_loadOp_of_storeOp hrd hst (by decide) (length_leBytes 16 _) (hle 16 rfl)
  · exact writes_loadOp_of_storeOp hrd hst (by decide) (length_beBytes 16 _) (hbe 16 rfl)
  · exact writes_loadOp_of_storeOp hrd hst (by decide) (length_leBytes 32 _) (hle 32 rfl)
  · exact writes_loadOp_of_storeOp hrd hst (by decide) (length_beBytes 32 _) (hbe 32 rfl)

end Sys2Proof.Machine

/-! # Strings: PARSE and FMT (44_serialize.md R239 to R245) -/

namespace Sys2Proof.Machine

/-! ### Digits -/

/-- Settles O56: the three ranges of characters are disjoint. -/
theorem digitValues : Obligations.DigitValues := by
  intro c
  refine ⟨fun hlow hhigh => ⟨if_pos ⟨hlow, hhigh⟩, if_pos ⟨hlow, hhigh⟩⟩, fun hlow hhigh => ?_, fun hlow hhigh => ?_,
    fun hdec hlower hupper => ?_⟩
  · have hdec : ¬ (0x30 ≤ c.toNat ∧ c.toNat ≤ 0x39) := by omega
    simp [digitValue?, hdec, hlow, hhigh]
  · have hdec : ¬ (0x30 ≤ c.toNat ∧ c.toNat ≤ 0x39) := by omega
    have hlower : ¬ (0x61 ≤ c.toNat ∧ c.toNat ≤ 0x66) := by omega
    simp [digitValue?, hdec, hlower, hlow, hhigh]
  · have hdec' : ¬ (0x30 ≤ c.toNat ∧ c.toNat ≤ 0x39) := by omega
    have hlower' : ¬ (0x61 ≤ c.toNat ∧ c.toNat ≤ 0x66) := by omega
    have hupper' : ¬ (0x41 ≤ c.toNat ∧ c.toNat ≤ 0x46) := by omega
    simp [digitValue?, hdec', hlower', hupper']

/-- The character of a digit is a digit with its value, in a radix that PARSE and FMT accept. -/
theorem digitValue?_digitChar {radix d : Nat} (hradix : radix = 10 ∨ radix = 16) (hd : d < radix) :
    digitValue? radix (digitChar d) = some d := by
  obtain rfl | rfl := hradix
  · revert d; decide
  · revert d; decide

theorem digitValues?_map {α : Type} {radix : Nat} {c : α → Byte} {d : α → Nat} {xs : List α}
    (h : ∀ x ∈ xs, digitValue? radix (c x) = some (d x)) : digitValues? radix (xs.map c) = some (xs.map d) := by
  induction xs with
  | nil => rfl
  | cons x xs ih =>
    rw [List.forall_mem_cons] at h
    rw [List.map_cons, digitValues?, h.1, ih h.2, List.map_cons]

/-- Reducing each step of the accumulation is reducing the positional sum once (R240). -/
theorem accumulate_eq (n radix : Nat) (ds : List Nat) : accumulate n radix ds = Nat.ofDigits radix ds.reverse % 2 ^ n := by
  induction ds using List.reverseRecOn with
  | nil => exact (Nat.zero_mod _).symm
  | append_singleton ds d ih =>
    have hstep : accumulate n radix (ds ++ [d]) = (accumulate n radix ds * radix + d) % 2 ^ n := by
      rw [accumulate, List.foldl_append]; rfl
    rw [hstep, ih, List.reverse_concat, Nat.ofDigits_cons, Nat.add_mod, Nat.mod_mul_mod, ← Nat.add_mod, mul_comm, add_comm]

theorem ten_le_of_radixOk {radix : Byte} (h : radixOk radix = true) : 10 ≤ radix.toNat := by
  have hor := (radixOk_iff radix).mp h
  omega

/-! ### PARSE -/

section
variable {n : Nat} {rd ra rb : Reg} {radix : Byte} {s : State} (hrd : 3 ≤ rd.val)
include hrd

theorem endsWith_parseOp_radix (hradix : radixOk radix = false) :
    EndsWith (parseOp n rd ra rb radix s) .invalidRadix s := by
  rw [EndsWith, parseOp, guardDest_general hrd, if_pos hradix]
  rfl

variable (hradix : radixOk radix = true)
include hradix

theorem endsWith_parseOp_length (hlen : 256 < val s rb) : EndsWith (parseOp n rd ra rb radix s) .invalidLength s := by
  rw [EndsWith, parseOp, guardDest_general hrd, if_neg (by rw [hradix]; decide), lenOf_eq_val, if_pos hlen]
  rfl

variable {bs : List Byte} (hlen : val s rb ≤ 256) (hread : s.buf.readBytes (bufAddr s ra) (val s rb) = .ok bs)
include hlen hread

theorem endsWith_parseOp_character (hdigits : digitValues? radix.toNat bs = none) :
    EndsWith (parseOp n rd ra rb radix s) .invalidCharacter s := by
  rw [EndsWith, parseOp, guardDest_general hrd, if_neg (by rw [hradix]; decide), lenOf_eq_val, if_neg (not_lt.mpr hlen),
    hread]
  simp only [hdigits]
  rfl

theorem writes_parseOp {ds : List Nat} (hdigits : digitValues? radix.toNat bs = some ds) :
    Writes (parseOp n rd ra rb radix s) rd (Nat.ofDigits radix.toNat ds.reverse % 2 ^ n) s := by
  rw [Writes, parseOp, guardDest_general hrd, if_neg (by rw [hradix]; decide), lenOf_eq_val, if_neg (not_lt.mpr hlen),
    hread, ← accumulate_eq]
  simp only [hdigits]
  rfl

end

/-- Settles O55: the checks in their order, then the positional sum of the digits. -/
theorem parseReadsAString : Obligations.ParseReadsAString := by
  intro rd ra rb radix s hrd
  refine ⟨fun h10 h16 => ?_, fun hradix => ⟨fun hlen => ?_, fun c hlen hread => ⟨fun hbad => ?_, fun d hd => ?_⟩⟩⟩
  · have hbad : radixOk radix = false := Bool.eq_false_iff.mpr fun hok => ((radixOk_iff radix).mp hok).elim h10 h16
    exact ⟨endsWith_parseOp_radix hrd hbad, endsWith_parseOp_radix hrd hbad⟩
  · have hok := (radixOk_iff radix).mpr hradix
    exact ⟨endsWith_parseOp_length hrd hok hlen, endsWith_parseOp_length hrd hok hlen⟩
  · have hok := (radixOk_iff radix).mpr hradix
    have hbytes := Memory.readBytes_of_read hread
    have hnone : digitValues? radix.toNat ((List.range (val s rb)).map c) = none := by
      obtain ⟨j, hj, hdigit⟩ := hbad
      exact (digitValues?_eq_none_iff _ _).mpr ⟨c j, List.mem_map_of_mem (List.mem_range.mpr hj), hdigit⟩
    exact ⟨endsWith_parseOp_character hrd hok hlen hbytes hnone, endsWith_parseOp_character hrd hok hlen hbytes hnone⟩
  · have hok := (radixOk_iff radix).mpr hradix
    have hbytes := Memory.readBytes_of_read hread
    have hdigits := digitValues?_map fun j hj => hd j (List.mem_range.mp hj)
    rw [← ofDigits_reverse_map_range]
    exact ⟨writes_parseOp hrd hok hlen hbytes hdigits, writes_parseOp hrd hok hlen hbytes hdigits⟩

/-! ### The digits FMT writes (R243) -/

/-- The digits of a number in the order of the string: most significant first, one 0 for 0. -/
def stringDigits (radix v : Nat) : List Nat := if v = 0 then [0] else (Nat.digits radix v).reverse

theorem formatDigits_eq {n radix v : Nat} (hradix : 1 < radix) (hv : v < 2 ^ n) :
    formatDigits n radix v = (stringDigits radix v).map digitChar := by
  rw [formatDigits, stringDigits, digitsLE_eq hradix n v hv]
  split
  · rfl
  · rw [List.map_reverse]

theorem ofDigits_reverse_stringDigits (radix v : Nat) : Nat.ofDigits radix (stringDigits radix v).reverse = v := by
  rw [stringDigits]
  split
  case isTrue h => rw [h]; rfl
  case isFalse => rw [List.reverse_reverse, Nat.ofDigits_digits]

theorem lt_of_mem_stringDigits {radix v d : Nat} (hradix : 1 < radix) (hd : d ∈ stringDigits radix v) : d < radix := by
  rw [stringDigits] at hd
  split at hd
  · rw [List.mem_singleton.mp hd]; omega
  · exact Nat.digits_lt_base hradix (List.mem_reverse.mp hd)

/-- `2^256` has 78 decimal digits. -/
theorem length_stringDigits_le {radix v : Nat} (hradix : 10 ≤ radix) (hv : v < 2 ^ 256) : (stringDigits radix v).length ≤ 78 := by
  rw [stringDigits]
  split
  · decide
  · rw [List.length_reverse, Nat.digits_length_le_iff (by omega)]
    calc v < 2 ^ 256 := hv
      _ ≤ 10 ^ 78 := by decide
      _ ≤ radix ^ 78 := Nat.pow_le_pow_left hradix 78

theorem digitChar_eq (d : Nat) : digitChar d = BitVec.ofNat 8 (if d < 10 then 0x30 + d else 0x61 + (d - 10)) :=
  (apply_ite (BitVec.ofNat 8) ..).symm

/-! ### FMT -/

section
variable {n : Nat} {rd ra rb : Reg} {radix : Byte} {s : State} (hrd : 3 ≤ rd.val)
include hrd

theorem endsWith_fmtOp_radix (hradix : radixOk radix = false) : EndsWith (fmtOp n rd ra rb radix s) .invalidRadix s := by
  rw [EndsWith, fmtOp, guardDest_general hrd, if_pos hradix]
  rfl

theorem fmtOp_of_radix (hradix : radixOk radix = true) :
    fmtOp n rd ra rb radix s =
      .next (respond .ok (writeReg
        { s with buf := s.buf.writeBytes (bufAddr s ra) ((stringDigits radix.toNat (low n s rb)).map digitChar) } rd
        (BitVec.ofNat 256 (stringDigits radix.toNat (low n s rb)).length))) := by
  have hbase : 1 < radix.toNat := lt_of_lt_of_le (by decide) (ten_le_of_radixOk hradix)
  rw [fmtOp, guardDest_general hrd, if_neg (by rw [hradix]; decide), view_toNat, formatDigits_eq hbase (low_lt n s rb)]
  simp only [completeStoreReg, List.length_map]

/-- What FMT does with a radix it accepts: the string in BUF, its length in the destination, nothing else (R244). -/
theorem fmtOp_writes_string (hn : n ≤ 256) (hradix : radixOk radix = true) :
    (stringDigits radix.toNat (low n s rb)).length ≤ 78 ∧
    ∃ t, fmtOp n rd ra rb radix s = .next t ∧
      t = respond .ok (writeReg { s with buf := t.buf } rd
        (BitVec.ofNat 256 (stringDigits radix.toNat (low n s rb)).length)) ∧
      (∀ j, (hj : j < (stringDigits radix.toNat (low n s rb)).length) →
        t.buf.read ((val s ra % 256 + j) % 256) = some (digitChar (stringDigits radix.toNat (low n s rb))[j])) ∧
      ∀ a, (∀ j < (stringDigits radix.toNat (low n s rb)).length, a ≠ (val s ra % 256 + j) % 256) →
        t.buf.read a = s.buf.read a := by
  have hlength := length_stringDigits_le (ten_le_of_radixOk hradix)
    ((low_lt n s rb).trans_le (Nat.pow_le_pow_right two_pos hn))
  refine ⟨hlength, _, fmtOp_of_radix hrd hradix, ?_, fun j hj => ?_, fun a ha => ?_⟩
  · rw [respond_buf, writeReg_buf]
  · rw [respond_buf, writeReg_buf, ← List.getElem_map digitChar (h := by rwa [List.length_map])]
    exact Memory.read_writeBytes_self _ _ _ (by rw [List.length_map]; omega) j _
  · rw [respond_buf, writeReg_buf]
    refine Memory.read_writeBytes_other _ _ _ _ fun j hj => ?_
    rw [List.length_map] at hj
    exact ha j hj

end

/-- Settles O57: both commands are `fmtOp`, whose string is the digits of the N-bit view. -/
theorem formatWritesTheDigits : Obligations.FormatWritesTheDigits := by
  intro rd ra rb radix s i v hrd h
  obtain ⟨n, hn, hexec, rfl⟩ : ∃ n ≤ 256, exec i s = fmtOp n rd ra rb radix s ∧ v = low n s rb := by
    simp only [List.mem_cons, List.not_mem_nil, or_false, Prod.mk.injEq] at h
    obtain ⟨rfl, rfl⟩ | ⟨rfl, rfl⟩ := h
    · exact ⟨128, by decide, rfl, rfl⟩
    · exact ⟨256, le_rfl, rfl, (low_256 s rb).symm⟩
  rw [hexec]
  refine ⟨fun h10 h16 => endsWith_fmtOp_radix hrd (Bool.eq_false_iff.mpr fun hok =>
    ((radixOk_iff radix).mp hok).elim h10 h16), fun hradix => ?_⟩
  simp only [← digitChar_eq]
  exact fmtOp_writes_string hrd hn ((radixOk_iff radix).mpr hradix)

/-! ### PARSE after FMT -/

theorem fmtOp_ok_cases {n : Nat} {rl ra rb : Reg} {radix : Byte} {s t : State} (h : fmtOp n rl ra rb radix s = .next t)
    (hst : t.rspStatus = .ok) : 3 ≤ rl.val ∧ radixOk radix = true := by
  have hrl : 3 ≤ rl.val := by
    by_contra hlt
    cases (guardDest_constant (not_le.mp hlt) s _).symm.trans h
    cases hst
  refine ⟨hrl, ?_⟩
  by_contra hbad
  cases (endsWith_fmtOp_radix hrl (Bool.eq_false_iff.mpr hbad)).symm.trans h
  cases hst

/-- PARSE finds the address and the length where FMT left them, and reads back the digits FMT wrote. -/
theorem writes_parseOp_of_fmtOp {n : Nat} (hn : n ≤ 256) {rl ra rb rd : Reg} {radix : Byte} {s t : State} (hrd : 3 ≤ rd.val)
    (hne : rl ≠ ra) (hst : t.rspStatus = .ok) (h : fmtOp n rl ra rb radix s = .next t) :
    Writes (parseOp n rd ra rl radix t) rd (low n s rb) t := by
  obtain ⟨hrl, hradix⟩ := fmtOp_ok_cases h hst
  have hten := ten_le_of_radixOk hradix
  have hlength := length_stringDigits_le hten ((low_lt n s rb).trans_le (Nat.pow_le_pow_right two_pos hn))
  injection (fmtOp_of_radix hrl hradix).symm.trans h with ht
  have haddr : readReg t ra = readReg s ra := by
    rw [← ht, readReg_respond, readReg_writeReg_other _ hne.symm]
    rfl
  have hlen : val t rl = (stringDigits radix.toNat (low n s rb)).length := by
    rw [← ht, val, readReg_respond, readReg_writeReg_self _ hrl, BitVec.toNat_ofNat, Nat.mod_eq_of_lt (by omega)]
  have hread : t.buf.readBytes (bufAddr t ra) (val t rl) = .ok ((stringDigits radix.toNat (low n s rb)).map digitChar) := by
    rw [bufAddr_congr haddr, hlen, ← ht, respond_buf, writeReg_buf, ← List.length_map digitChar]
    exact Memory.readBytes_writeBytes _ _ (by rw [List.length_map]; omega)
  have hdigits : digitValues? radix.toNat ((stringDigits radix.toNat (low n s rb)).map digitChar) =
      some ((stringDigits radix.toNat (low n s rb)).map id) :=
    digitValues?_map fun d hd =>
      digitValue?_digitChar ((radixOk_iff radix).mp hradix) (lt_of_mem_stringDigits (by omega) hd)
  refine (writes_parseOp hrd hradix (by omega) hread hdigits).congr ?_
  rw [List.map_id, ofDigits_reverse_stringDigits, Nat.mod_eq_of_lt (low_lt n s rb)]

/-- Settles O58: at both widths PARSE inverts FMT. -/
theorem parseAfterFormatGivesTheValue : Obligations.ParseAfterFormatGivesTheValue := by
  intro s t rl ra rb rd radix hrd hne hst
  rw [← low_256 s rb]
  exact ⟨writes_parseOp_of_fmtOp (by decide) hrd hne hst, writes_parseOp_of_fmtOp le_rfl hrd hne hst⟩

end Sys2Proof.Machine
